-- ==== Sys2Proof/Word.lean ====
section
/-! DEFINITION. The word types of FE-CORE (10_state.md R31, R32, R35). -/

namespace Sys2Proof

/-- A byte: a Z/256 entry, a GF(2) row, one of the sixteen bytes of a wide register. -/
abbrev Byte := BitVec 8

/-- A 32-bit word: a scalar register, a command word, a host access's data. -/
abbrev Word := BitVec 32

/-- A 128-bit register (W0..W7 and L).  Byte `k` of the register is bits `8k+7 .. 8k`
(little-endian, so that R72 and R74 place byte `k` at window offset `k`). -/
abbrev Wide := BitVec 128

end Sys2Proof
end

