-- ==== Sys2Proof/Config.lean ====
section
/-! DEFINITION. What an implementation of FE-CORE fixes (00_scope.md R7), and the free values. -/

namespace Sys2Proof

/-- `P_LFSR_CHAIN`, the direction of the LFSR's shift chain (R7, R182; 90_conflicts.md C1). -/
inductive LfsrChain where
  | frontToBack
  | backToFront
deriving DecidableEq, Repr

/-- The implementation parameters of R7, which a model takes as arguments: every state carries its
own, no step changes them, and a statement about every state is a statement about every choice. -/
structure Params where
  /-- `P_LFSR_CHAIN`. -/
  chain : LfsrChain
  /-- `P_BASE` is `4096 * page` (R70: a multiple of 4096). -/
  page : Nat
deriving DecidableEq, Repr

/-- `P_BASE` in bytes (R70). -/
def Params.base (p : Params) : Nat := 4096 * p.page

/-- The parameters of the machine after reset: the default chain direction of R7.
DESIGN CHOICE (log 2): page 0, since `P_BASE` is OPEN; unsafe for a statement about that one machine. -/
def Params.default : Params := { chain := .frontToBack, page := 0 }

/-- The constant the ID register reads as (R45). -/
def Config.idValue : Word := 0x46454331#32

/-- The free value of R78 (93_implementation_defined.md U1): what the `n`-th read of the W, X or L
window or of CALLCNT made while BUSY = 1 returns.  No body: nothing can be proved of it.
DESIGN CHOICE (log 5): a function of `n` alone, which unlike U1 keeps it apart from W, X, L and
CALLCNT; safe for a claim about its value, unsafe for a claim of that independence. -/
opaque Config.busyRead : Nat → Word

end Sys2Proof
end

