-- ==== Sys2Proof/Syntax.lean ====
section
/-! DEFINITION. The commands of FE-CORE: one constructor for each row of the opcode table (30_encoding.md R105).
Operands stand in the order of R109: destination, first source, second source, immediate. -/

namespace Sys2Proof

/-- A wide register number W0..W7 (R31, R103). -/
abbrev WReg := Fin 8

/-- A scalar register number X0..X7 (R32, R103). -/
abbrev XReg := Fin 8

/-- A command (R105). -/
inductive Instr where
  /-- NOP (R220). -/
  | nop
  /-- SINV Xd, Xs (R123). -/
  | sinv (d : XReg) (src : XReg)
  /-- DET3 Xd, Ws (R127). -/
  | det3 (d : XReg) (src : WReg)
  /-- ADJ3 Wd, Ws (R129). -/
  | adj3 (d : WReg) (src : WReg)
  /-- INV3 Wd, Ws (R132). -/
  | inv3 (d : WReg) (src : WReg)
  /-- MVM3 Wd, Wk, Wv (R135). -/
  | mvm3 (d : WReg) (k : WReg) (v : WReg)
  /-- GMM Wd, Wa, Wb (R151). -/
  | gmm (d : WReg) (a : WReg) (b : WReg)
  /-- GMV Wd, Wa, Wv (R153). -/
  | gmv (d : WReg) (a : WReg) (v : WReg)
  /-- GINV Wd, Ws (R156). -/
  | ginv (d : WReg) (src : WReg)
  /-- GISINV Xd, Ws (R158). -/
  | gisinv (d : XReg) (src : WReg)
  /-- LSEED (R192). -/
  | lseed
  /-- LLOAD Ws (R193). -/
  | lload (src : WReg)
  /-- LSTORE Wd (R194). -/
  | lstore (d : WReg)
  /-- LCALL Xd, n (R195). -/
  | lcall (d : XReg) (n : BitVec 16)
  /-- LDRAW Xd (R197). -/
  | ldraw (d : XReg)
  /-- LOCK Wd, Wk, Wb (R212). -/
  | lock (d : WReg) (k : WReg) (b : WReg)
  /-- UNLOCK Wd, Wk, Wb (R214). -/
  | unlock (d : WReg) (k : WReg) (b : WReg)
deriving DecidableEq, Repr

end Sys2Proof
end

