-- ==== Sys2Proof/WellFormed.lean ====
section
/-! DEFINITION. Which commands the encoding can carry. -/

namespace Sys2Proof

/-- The one check an operand can fail: an LCALL repeats at least once (R103: "legal values
1..65535"; R101).  Every register number 0..7 is legal for every file (R103). -/
def Instr.wellFormed : Instr → Bool
  | .nop => true
  | .sinv _ _ => true
  | .det3 _ _ => true
  | .adj3 _ _ => true
  | .inv3 _ _ => true
  | .mvm3 _ _ _ => true
  | .gmm _ _ _ => true
  | .gmv _ _ _ => true
  | .ginv _ _ => true
  | .gisinv _ _ => true
  | .lseed => true
  | .lload _ => true
  | .lstore _ => true
  | .lcall _ n => n != 0#16
  | .ldraw _ => true
  | .lock _ _ _ => true
  | .unlock _ _ _ => true

end Sys2Proof
end

