-- ==== Sys2Proof/Decode.lean ====
section
/-! DEFINITION. The command format, the decoder and the encoder (30_encoding.md R101 to R107). -/

namespace Sys2Proof

/-- What the decoder makes of a command word: a command, or the name of the error R101 raises. -/
inductive Decoded where
  | command (i : Instr)
  /-- the OPC field is reserved (R106) -/
  | illegalOpcode
  /-- a field the opcode does not use is not 0, or LCALL's count is 0 (R101, R104) -/
  | illegalOperand
deriving DecidableEq, Repr

/-- The command of a decoded word, if it is one. -/
def Decoded.instr? : Decoded → Option Instr
  | .command i => some i
  | .illegalOpcode => none
  | .illegalOperand => none

/-- OPC, bits 31:26 (R102). -/
def fieldOpc (c : Word) : BitVec 6 := c.extractLsb' 26 6

/-- RD, bits 25:23 (R102). -/
def fieldRd (c : Word) : Fin 8 := (c.extractLsb' 23 3).toFin

/-- RS1, bits 22:20 (R102). -/
def fieldRs1 (c : Word) : Fin 8 := (c.extractLsb' 20 3).toFin

/-- RS2, bits 19:17 (R102). -/
def fieldRs2 (c : Word) : Fin 8 := (c.extractLsb' 17 3).toFin

/-- IMM16, bits 15:0 (R102). -/
def fieldImm (c : Word) : BitVec 16 := c.extractLsb' 0 16

/-- The command `i`, if every bit of `unused` is 0 in the word (R104). -/
def decodeOperands (c unused : Word) (i : Instr) : Decoded :=
  if c &&& unused = 0#32 then .command i else .illegalOperand

/-- The unused fields of an opcode that reads no field (R104): all of bits 25:0. -/
def unusedAll : Word := 0x03FFFFFF#32

/-- The unused fields of an opcode that uses RD, RS1 and RS2: Z and IMM16. -/
def unusedThree : Word := 0x0001FFFF#32

/-- The unused fields of an opcode that uses RD and RS1: RS2, Z and IMM16. -/
def unusedTwo : Word := 0x000FFFFF#32

/-- The unused fields of an opcode that uses RD only: RS1, RS2, Z and IMM16. -/
def unusedRdOnly : Word := 0x007FFFFF#32

/-- The unused fields of an opcode that uses RS1 only: RD, RS2, Z and IMM16. -/
def unusedRs1Only : Word := 0x038FFFFF#32

/-- The unused fields of LCALL: RS1, RS2 and Z. -/
def unusedLcall : Word := 0x007F0000#32

/-- Decoding a command word: the opcode map of R105, the reserved opcodes of R106, the unused
fields of R104 and LCALL's count of R101. -/
def decode (c : Word) : Decoded :=
  match (fieldOpc c).toNat with
  | 0x00 => decodeOperands c unusedAll .nop
  | 0x01 => decodeOperands c unusedTwo (.sinv (fieldRd c) (fieldRs1 c))
  | 0x02 => decodeOperands c unusedTwo (.det3 (fieldRd c) (fieldRs1 c))
  | 0x03 => decodeOperands c unusedTwo (.adj3 (fieldRd c) (fieldRs1 c))
  | 0x04 => decodeOperands c unusedTwo (.inv3 (fieldRd c) (fieldRs1 c))
  | 0x05 => decodeOperands c unusedThree (.mvm3 (fieldRd c) (fieldRs1 c) (fieldRs2 c))
  | 0x08 => decodeOperands c unusedThree (.gmm (fieldRd c) (fieldRs1 c) (fieldRs2 c))
  | 0x09 => decodeOperands c unusedThree (.gmv (fieldRd c) (fieldRs1 c) (fieldRs2 c))
  | 0x0A => decodeOperands c unusedTwo (.ginv (fieldRd c) (fieldRs1 c))
  | 0x0B => decodeOperands c unusedTwo (.gisinv (fieldRd c) (fieldRs1 c))
  | 0x10 => decodeOperands c unusedAll .lseed
  | 0x11 => decodeOperands c unusedRs1Only (.lload (fieldRs1 c))
  | 0x12 => decodeOperands c unusedRdOnly (.lstore (fieldRd c))
  | 0x13 => if fieldImm c = 0#16 then .illegalOperand
            else decodeOperands c unusedLcall (.lcall (fieldRd c) (fieldImm c))
  | 0x14 => decodeOperands c unusedRdOnly (.ldraw (fieldRd c))
  | 0x18 => decodeOperands c unusedThree (.lock (fieldRd c) (fieldRs1 c) (fieldRs2 c))
  | 0x19 => decodeOperands c unusedThree (.unlock (fieldRd c) (fieldRs1 c) (fieldRs2 c))
  | _ => .illegalOpcode

/-- A command word from its fields, in the layout of R102 (Z = 0). -/
def commandWord (opc : BitVec 6) (rd rs1 rs2 : Fin 8) (imm : BitVec 16) : Word :=
  opc ++ BitVec.ofFin (w := 3) rd ++ BitVec.ofFin (w := 3) rs1 ++ BitVec.ofFin (w := 3) rs2
    ++ 0#1 ++ imm

/-- The word of a command (R102, R105). -/
def encode : Instr → Word
  | .nop => commandWord 0x00#6 0 0 0 0#16
  | .sinv d src => commandWord 0x01#6 d src 0 0#16
  | .det3 d src => commandWord 0x02#6 d src 0 0#16
  | .adj3 d src => commandWord 0x03#6 d src 0 0#16
  | .inv3 d src => commandWord 0x04#6 d src 0 0#16
  | .mvm3 d k v => commandWord 0x05#6 d k v 0#16
  | .gmm d a b => commandWord 0x08#6 d a b 0#16
  | .gmv d a v => commandWord 0x09#6 d a v 0#16
  | .ginv d src => commandWord 0x0A#6 d src 0 0#16
  | .gisinv d src => commandWord 0x0B#6 d src 0 0#16
  | .lseed => commandWord 0x10#6 0 0 0 0#16
  | .lload src => commandWord 0x11#6 0 src 0 0#16
  | .lstore d => commandWord 0x12#6 d 0 0 0#16
  | .lcall d n => commandWord 0x13#6 d 0 0 n
  | .ldraw d => commandWord 0x14#6 d 0 0 0#16
  | .lock d k b => commandWord 0x18#6 d k b 0#16
  | .unlock d k b => commandWord 0x19#6 d k b 0#16

/-- One row of the opcode table of R105: mnemonic, match and mask. -/
structure OpcodeRow where
  mnemonic : String
  pattern : Word
  mask : Word
deriving DecidableEq, Repr

/-- The opcode table of R105, its match and mask columns as printed. -/
def opcodeTable : List OpcodeRow :=
  [ ⟨"NOP", 0x00000000#32, 0xFFFFFFFF#32⟩,
    ⟨"SINV", 0x04000000#32, 0xFC0FFFFF#32⟩,
    ⟨"DET3", 0x08000000#32, 0xFC0FFFFF#32⟩,
    ⟨"ADJ3", 0x0C000000#32, 0xFC0FFFFF#32⟩,
    ⟨"INV3", 0x10000000#32, 0xFC0FFFFF#32⟩,
    ⟨"MVM3", 0x14000000#32, 0xFC01FFFF#32⟩,
    ⟨"GMM", 0x20000000#32, 0xFC01FFFF#32⟩,
    ⟨"GMV", 0x24000000#32, 0xFC01FFFF#32⟩,
    ⟨"GINV", 0x28000000#32, 0xFC0FFFFF#32⟩,
    ⟨"GISINV", 0x2C000000#32, 0xFC0FFFFF#32⟩,
    ⟨"LSEED", 0x40000000#32, 0xFFFFFFFF#32⟩,
    ⟨"LLOAD", 0x44000000#32, 0xFF8FFFFF#32⟩,
    ⟨"LSTORE", 0x48000000#32, 0xFC7FFFFF#32⟩,
    ⟨"LCALL", 0x4C000000#32, 0xFC7F0000#32⟩,
    ⟨"LDRAW", 0x50000000#32, 0xFC7FFFFF#32⟩,
    ⟨"LOCK", 0x60000000#32, 0xFC01FFFF#32⟩,
    ⟨"UNLOCK", 0x64000000#32, 0xFC01FFFF#32⟩ ]

/-- The mnemonic of a command (R105). -/
def Instr.mnemonic : Instr → String
  | .nop => "NOP"
  | .sinv _ _ => "SINV"
  | .det3 _ _ => "DET3"
  | .adj3 _ _ => "ADJ3"
  | .inv3 _ _ => "INV3"
  | .mvm3 _ _ _ => "MVM3"
  | .gmm _ _ _ => "GMM"
  | .gmv _ _ _ => "GMV"
  | .ginv _ _ => "GINV"
  | .gisinv _ _ => "GISINV"
  | .lseed => "LSEED"
  | .lload _ => "LLOAD"
  | .lstore _ => "LSTORE"
  | .lcall _ _ => "LCALL"
  | .ldraw _ => "LDRAW"
  | .lock _ _ _ => "LOCK"
  | .unlock _ _ _ => "UNLOCK"

/-- The command a table word stands for: FE-CORE's command words are 32 bits, one length (R102),
so the low `nbits` bits of `w` are one whole word; `none` where the decoder rejects it. -/
def decodeTableWord (nbits w : Nat) : Option Instr :=
  (decode (BitVec.ofNat 32 (w % 2 ^ nbits))).instr?

end Sys2Proof
end

