-- ==== Sys2Proof/Machine/State.lean ====
section
/-! DEFINITION. The state of FE-CORE (10_state.md), the turns of its environment, the reasons a step can
stop, and the state after reset (R51). -/

namespace Sys2Proof.Machine

/-- The error codes of STATUS.ECODE (60_exceptions.md R241). -/
inductive ECode where
  | noError
  | illegalOpcode
  | illegalOperand
  | busyWrite
  | badAccess
  | unmapped
  | roWrite
deriving DecidableEq, Repr

/-- The width of a host access: 32 bits is the only one FE-CORE accepts (20_memory.md R73). -/
inductive AccessWidth where
  | bits8
  | bits16
  | bits32
  | bits64
  | burst
deriving DecidableEq, Repr

/-- The direction of a host access.  A write carries the 32 bits of its data; the data of a write of
another width is never stored (R73), so nothing is lost (log 16). -/
inductive AccessKind where
  | read
  | write (data : Word)
deriving DecidableEq, Repr

/-- One host access at a byte address of the host's address space (R70). -/
structure Access where
  addr : Nat
  width : AccessWidth
  kind : AccessKind
deriving DecidableEq, Repr

/-- Whose turn it is (R30, R79, R245): the host's, with the access it performs, the engine's, or the
reset input's (R280). -/
inductive Turn where
  | engine
  | host (a : Access)
  | reset
deriving DecidableEq, Repr

/-- The state of FE-CORE: the registers of R30 and R49, then the model's own fields. -/
structure State where
  /-- the parameters `P_LFSR_CHAIN` and `P_BASE` (R7); the model's own field (log 1) -/
  params : Params
  /-- W0..W7 (R31) -/
  w : Vector Wide 8
  /-- X0..X7 (R32) -/
  x : Vector Word 8
  /-- L (R35) -/
  l : Wide
  /-- CTRL.IE (R39) -/
  ie : Bool
  /-- STATUS.DONE (R41) -/
  done : Bool
  /-- STATUS.NI (R42) -/
  ni : Bool
  /-- STATUS.ERR (R43) -/
  err : Bool
  /-- STATUS.ECODE (R43) -/
  ecode : ECode
  /-- the CMD readback (R44) -/
  cmd : Word
  /-- CALLCNT (R46) -/
  callcnt : Word
  /-- ERRINFO (R47) -/
  errinfo : Word
  /-- the pending-command latch (R49); STATUS.BUSY is 1 exactly while it holds a word -/
  pend : Option Word
  /-- the environment's turns still to come; the model's own field (log 3) -/
  turns : List Turn
  /-- what the last host access returned, `none` for a write; the model's own field (log 4) -/
  reply : Option Word
  /-- how many free values of R78 have been drawn; the model's own field (log 5) -/
  freeCount : Nat
deriving DecidableEq, Repr

/-- Why a step stops with a fault. -/
inductive Fault where
  /-- Raised by a host turn whose access is not in the 4096-byte window at `P_BASE` (R70): the address
  does not exist in FE-CORE's address space.  Safe: the model stops where FE-CORE sees nothing (log 10). -/
  | outsideWindow (addr : Nat)
deriving DecidableEq, Repr

/-- Why a step is refused. -/
inductive Refusal where
  /-- Raised by no arm of exec: every command is modelled.  Safe. -/
  | notModelled (mnemonic : String)
  /-- Raised by the engine's turn where the latch holds a word that is no command.  R101 latches only
  commands, so no run reaches it.  Safe (log 9). -/
  | undecodedLatch (word : Word)
deriving DecidableEq, Repr

/-- The state after a reset (R51, R280) of the machine with parameters `p`, with no turn to come. -/
def State.resetWith (p : Params) : State :=
  { params := p
    w := Vector.replicate 8 0#128
    x := Vector.replicate 8 0#32
    l := 0x80000000000000000000000000000001#128
    ie := false
    done := false
    ni := false
    err := false
    ecode := .noError
    cmd := 0#32
    callcnt := 0#32
    errinfo := 0#32
    pend := none
    turns := []
    reply := none
    freeCount := 0 }

/-- The machine right after reset, with the default parameters. -/
def State.reset : State := State.resetWith Params.default

end Sys2Proof.Machine
end

