-- ==== Sys2Proof/Machine/Operands.lean ====
section
/-! DEFINITION. The operand forms: bytes and words of a wide register (20_memory.md R72, R74) and the value
types M3, V3, B8, b8 of 10_state.md R33, read and written back as R33 and R34 say. -/

namespace Sys2Proof.Machine

/-- Byte `k` of a wide register (R31, R72). -/
def byteOf (v : Wide) (k : Nat) : Byte := v.extractLsb' (8 * k) 8

/-- The wide value whose bytes 0, 1, 2, … are the listed ones and whose other bytes are 0: the zero
fill of R34. -/
def wideOfBytes : List Byte → Wide
  | [] => 0#128
  | b :: bs => (wideOfBytes bs <<< 8) ||| b.setWidth 128

/-- The 32-bit word at word index `k` of a wide register: bytes `4k .. 4k+3`, little-endian (R72, R74). -/
def wordOf (v : Wide) (k : Fin 4) : Word := v.extractLsb' (32 * k.val) 32

/-- A wide value with the word at index `k` replaced: a window write changes exactly four bytes (R72). -/
def withWord (v : Wide) (k : Fin 4) (d : Word) : Wide :=
  (v &&& ~~~(0xFFFFFFFF#128 <<< (32 * k.val))) ||| (d.setWidth 128 <<< (32 * k.val))

/-- A Z/256 3×3 matrix as M3 (R33, R120): unsigned bytes by row and column. -/
abbrev M3 := Fin 3 → Fin 3 → Byte

/-- A Z/256 3-vector as V3 (R33, R120). -/
abbrev V3 := Fin 3 → Byte

/-- The M3 view: `M[i][j] = byte 3i+j` (R33). -/
def m3Of (v : Wide) : M3 := fun i j => byteOf v (3 * i.val + j.val)

/-- The V3 view: `v[i] = byte i` (R33). -/
def v3Of (v : Wide) : V3 := fun i => byteOf v i.val

/-- A wide value holding an M3: bytes 0..8 row-major, bytes 9..15 zero (R33, R34). -/
def wideOfM3 (M : M3) : Wide :=
  wideOfBytes [M 0 0, M 0 1, M 0 2, M 1 0, M 1 1, M 1 2, M 2 0, M 2 1, M 2 2]

/-- A wide value holding a V3: bytes 0..2, bytes 3..15 zero (R33, R34). -/
def wideOfV3 (u : V3) : Wide := wideOfBytes [u 0, u 1, u 2]

/-- A GF(2) 8×8 matrix as its eight row bytes (B8, R33, R150): column `j` of row `i` is bit `7 - j` of
byte `i`. -/
abbrev B8 := Vector Byte 8

/-- The B8 view: row `i` is byte `i` (R33). -/
def b8Of (v : Wide) : B8 :=
  #v[byteOf v 0, byteOf v 1, byteOf v 2, byteOf v 3, byteOf v 4, byteOf v 5, byteOf v 6, byteOf v 7]

/-- Element `A[i][j]` of a GF(2) matrix (R33, R150). -/
def b8Elem (A : B8) (i j : Fin 8) : Bool := A[i].getLsbD (7 - j.val)

/-- A wide value holding a B8: bytes 0..7, bytes 8..15 zero (R33, R34). -/
def wideOfB8 (A : B8) : Wide :=
  wideOfBytes [A[0], A[1], A[2], A[3], A[4], A[5], A[6], A[7]]

/-- The b8 view: byte 0, element `v[k]` at bit `7 - k` (R33). -/
def vecByteOf (v : Wide) : Byte := byteOf v 0

/-- A wide value holding a b8: byte 0, bytes 1..15 zero (R33, R34). -/
def wideOfVecByte (b : Byte) : Wide := wideOfBytes [b]

/-- The byte whose bit `7 - k` is `f k` (the bit order of R150). -/
def byteOfBits (f : Fin 8 → Bool) : Byte :=
  BitVec.ofBool (f 0) ++ BitVec.ofBool (f 1) ++ BitVec.ofBool (f 2) ++ BitVec.ofBool (f 3)
    ++ BitVec.ofBool (f 4) ++ BitVec.ofBool (f 5) ++ BitVec.ofBool (f 6) ++ BitVec.ofBool (f 7)

/-- An X result of 8 bits, zero-extended (R34). -/
def wordOfByte (b : Byte) : Word := b.setWidth 32

end Sys2Proof.Machine
end

