-- ==== Sys2Proof/Machine/Flags.lean ====
section
/-! DEFINITION. The control and status registers as words, the flags' updates, and the interrupt line
(10_state.md R39 to R48, 60_exceptions.md R250). -/

namespace Sys2Proof.Machine

/-- The value of STATUS.ECODE for an error code (R241). -/
def ecodeByte : ECode → Byte
  | .noError => 0x00#8
  | .illegalOpcode => 0x01#8
  | .illegalOperand => 0x02#8
  | .busyWrite => 0x03#8
  | .badAccess => 0x04#8
  | .unmapped => 0x05#8
  | .roWrite => 0x06#8

/-- STATUS.BUSY (R40): the latch holds a word exactly while BUSY = 1 (R49). -/
def State.busy (s : State) : Bool := s.pend.isSome

/-- The STATUS register as the host reads it (R40 to R43): ECODE in bits 15:8, ERR bit 3, NI bit 2,
DONE bit 1, BUSY bit 0; the reserved bits read 0 (R48). -/
def statusWord (s : State) : Word :=
  0#16 ++ ecodeByte s.ecode ++ 0#4 ++ BitVec.ofBool s.err ++ BitVec.ofBool s.ni
    ++ BitVec.ofBool s.done ++ BitVec.ofBool s.busy

/-- The CTRL register as the host reads it (R39): IE in bit 1, SRST reads 0, reserved bits read 0. -/
def ctrlWord (s : State) : Word := 0#30 ++ BitVec.ofBool s.ie ++ 0#1

/-- IRQ = CTRL.IE and (DONE or ERR) (R250). -/
def State.irq (s : State) : Bool := s.ie && (s.done || s.err)

/-- NI written by SINV, INV3, GINV and GISINV (R42). -/
def setNi (b : Bool) (s : State) : State := { s with ni := b }

/-- The DONE half of a STATUS write: bit 1 = 1 clears DONE, bit 1 = 0 leaves it (R41). -/
def clearDone (v : Word) (s : State) : State :=
  if v.getLsbD 1 then { s with done := false } else s

/-- The ERR half of a STATUS write: bit 3 = 1 clears ERR, ECODE and ERRINFO (R43), which is how the
host acknowledges an error (R248). -/
def clearErr (v : Word) (s : State) : State :=
  if v.getLsbD 3 then { s with err := false, ecode := .noError, errinfo := 0#32 } else s

/-- A STATUS write (R41, R43): both write-1-to-clear bits act, every other bit is ignored (R48). -/
def writeStatus (v : Word) (s : State) : State := clearErr v (clearDone v s)

end Sys2Proof.Machine
end

