-- ==== Sys2Proof/Machine/Ops.lean ====
section
/-! DEFINITION. The shared operations over FE-CORE's registers: register access, the completion of a
command, the recording of an error, the resets and the issue of a command. -/

namespace Sys2Proof.Machine

/-- `w[i]` (00_scope.md R9; no wide register is hardwired, R31). -/
def readW (i : WReg) (s : State) : Wide := s.w[i]

/-- `x[i]` (R9; no scalar register is hardwired, R32). -/
def readX (i : XReg) (s : State) : Word := s.x[i]

/-- `w[i] <- v` (R9). -/
def writeW (i : WReg) (v : Wide) (s : State) : State := { s with w := s.w.set i v }

/-- `x[i] <- v` (R9). -/
def writeX (i : XReg) (v : Word) (s : State) : State := { s with x := s.x.set i v }

/-- `L <- v` (R9, R35). -/
def setL (v : Wide) (s : State) : State := { s with l := v }

/-- L after `calls` generator calls, which CALLCNT counts modulo 2^32 (R46, R183). -/
def advanceL (v : Wide) (calls : Nat) (s : State) : State :=
  { s with l := v, callcnt := s.callcnt + BitVec.ofNat 32 calls }

/-- The completion of a command (R49): BUSY = 0 and the latch empty, DONE = 1. -/
def complete (s : State) : State := { s with pend := none, done := true }

/-- FE-CORE's counterpart of taking an exception (R247: there is no trap): recording an error (R242).
The first error since ERR was 0 is kept; nothing else changes. -/
def recordError (code : ECode) (info : Word) (s : State) : State :=
  if s.err then s else { s with err := true, ecode := code, errinfo := info }

/-- A reset (R280, R282): every piece of state takes the value of R51.  The parameters, the turns
still to come and the count of free values are not FE-CORE's state and stay (log 13). -/
def resetState (s : State) : State :=
  { State.resetWith s.params with turns := s.turns, freeCount := s.freeCount }

/-- A CTRL write (R39): SRST = 1 performs the soft reset and discards the IE bit of the same write;
otherwise IE takes bit 1 and the reserved bits are ignored (R48). -/
def writeCtrl (v : Word) (s : State) : State :=
  if v.getLsbD 0 then resetState s else { s with ie := v.getLsbD 1 }

/-- The acceptance of a command word (R101): CMD <- c, pend <- c, BUSY <- 1, DONE <- 0. -/
def acceptCommand (c : Word) (s : State) : State :=
  { s with cmd := c, pend := some c, done := false }

/-- A well-shaped CMD write (R101, after BAD_ACCESS): BUSY_WRITE, then the decoder's two errors, then
acceptance.  A rejected word goes to ERRINFO (R47), not to CMD (R44). -/
def issueCommand (c : Word) (s : State) : State :=
  if s.busy then recordError .busyWrite c s
  else
    match decode c with
    | .illegalOpcode => recordError .illegalOpcode c s
    | .illegalOperand => recordError .illegalOperand c s
    | .command _ => acceptCommand c s

/-- The turns still to come, replaced (log 3). -/
def setTurns (ts : List Turn) (s : State) : State := { s with turns := ts }

/-- What the engine's step fetches: the word in the latch (R49). -/
def fetchWord (s : State) : Option Word := s.pend

end Sys2Proof.Machine
end

