-- ==== Sys2Proof/Machine/Lfsr.lean ====
section
/-! DEFINITION. The LFSR bit-stream generator: LSEED, LLOAD, LSTORE, LCALL, LDRAW (42_lfsr.md). -/

namespace Sys2Proof.Machine

/-- The feedback bit (R181): bits 0, 1, 2 and 7 of byte 0. -/
def newbit (v : Wide) : Bool :=
  v.getLsbD 0 ^^ v.getLsbD 1 ^^ v.getLsbD 2 ^^ v.getLsbD 7

/-- A feedback bit placed at bit `k` of the register. -/
def bitAt (b : Bool) (k : Nat) : Wide := (BitVec.ofBool b).setWidth 128 <<< k

/-- One shift step (R182), in both chain directions.

FRONT_TO_BACK, all sixteen bytes at once: every byte shifts right by one (the mask 7F… keeps its low
seven bits), the LSB of byte `i` goes to bit 7 of byte `i+1` (15 bits up), the LSB of byte 15 is
discarded, and the feedback bit enters bit 7 of byte 0.

BACK_TO_FRONT: byte 0 is the least significant byte of the register as a number, so the step is the
rule's `V' = (nb << 127) | (V >> 1)`: the feedback bit enters bit 7 of byte 15. -/
def shiftStep (chain : LfsrChain) (v : Wide) : Wide :=
  match chain with
  | .frontToBack =>
    ((v >>> 1) &&& 0x7F7F7F7F7F7F7F7F7F7F7F7F7F7F7F7F#128)
      ||| ((v &&& 0x01010101010101010101010101010101#128) <<< 15)
      ||| bitAt (newbit v) 7
  | .backToFront => bitAt (newbit v) 127 ||| (v >>> 1)

/-- `n` shift steps. -/
def shiftSteps (chain : LfsrChain) : Nat → Wide → Wide
  | 0, v => v
  | n + 1, v => shiftSteps chain n (shiftStep chain v)

/-- The register after one generator call (R183): 32 shift steps. -/
def callL (chain : LfsrChain) (v : Wide) : Wide := shiftSteps chain 32 v

/-- The 16-bit output read after a call (R183): byte 0 is its low byte, byte 1 its high byte. -/
def callOutput (v : Wide) : BitVec 16 := byteOf v 1 ++ byteOf v 0

/-- The register after `n` generator calls (R195). -/
def callsL (chain : LfsrChain) : Nat → Wide → Wide
  | 0, v => v
  | n + 1, v => callsL chain n (callL chain v)

/-- The outcome of mask drawing: masks `m` and the register and number of calls made; or no end. -/
inductive Drawn (α : Type) where
  | drew (m : α) (l : Wide) (calls : Nat)
  | hang (l : Wide) (calls : Nat)
deriving DecidableEq, Repr

/-- The loop of `Draw` (R184), at most `fuel` more calls: it ends at the first output whose low byte is odd. -/
def drawLoop (chain : LfsrChain) : Nat → Wide → Nat → Drawn Byte
  | 0, v, calls => .hang v calls
  | fuel + 1, v, calls =>
    let v' := callL chain v
    let m := (callOutput v').setWidth 8
    if m.getLsbD 0 then .drew m v' (calls + 1) else drawLoop chain fuel v' (calls + 1)

/-- `Draw(L)` (R184).  A draw that has not ended after 128 calls never ends (R185; DEDUCED there, log 6). -/
def draw (chain : LfsrChain) (v : Wide) : Drawn Byte := drawLoop chain 128 v 0

/-- The encoder's seed (R190): byte 0 = 01, byte 15 = 80, the rest 00. -/
def encoderSeed : Wide := 0x80000000000000000000000000000001#128

/-- LSEED (R192). -/
def execLseed (s : State) : Host.Outcome State Fault Refusal :=
  .next (complete (setL encoderSeed s))

/-- LLOAD (R193). -/
def execLload (src : WReg) (s : State) : Host.Outcome State Fault Refusal :=
  .next (complete (setL (readW src s) s))

/-- LSTORE (R194). -/
def execLstore (d : WReg) (s : State) : Host.Outcome State Fault Refusal :=
  .next (complete (writeW d s.l s))

/-- LCALL (R195): `n` calls, counted; X gets the last output, zero-extended. -/
def execLcall (d : XReg) (n : BitVec 16) (s : State) : Host.Outcome State Fault Refusal :=
  let v := callsL s.params.chain n.toNat s.l
  .next (complete (writeX d ((callOutput v).setWidth 32) (advanceL v n.toNat s)))

/-- LDRAW (R197).  A draw that never ends leaves the command uncompleted, L and CALLCNT advancing
(R186; log 7). -/
def execLdraw (d : XReg) (s : State) : Host.Outcome State Fault Refusal :=
  match draw s.params.chain s.l with
  | .drew m v calls => .next (complete (writeX d (wordOfByte m) (advanceL v calls s)))
  | .hang v calls => .next (advanceL v calls s)

end Sys2Proof.Machine
end

