-- ==== Sys2Proof/Machine/Ring256.lean ====
section
/-! DEFINITION. The Z/256 matrix engine: SINV, DET3, ADJ3, INV3, MVM3 (40_ring256.md). -/

namespace Sys2Proof.Machine

/-- `inv256(a)` (R122): the first `x` in 1..255, scanning upward, with `(a * x) mod 256 = 1`; the
sentinel 0 if there is none. -/
def inv256 (a : Byte) : Byte :=
  match (List.range' 1 255).find? (fun x => a.toNat * x % 256 == 1) with
  | some x => BitVec.ofNat 8 x
  | none => 0#8

/-- An entry as a mathematical integer 0..255 (R120). -/
def entryInt (M : M3) (i j : Fin 3) : Int := (M i j).toNat

/-- `det3(M)` (R125): cofactor expansion along row 0 on mathematical integers. -/
def det3 (M : M3) : Int :=
  let e := entryInt M
  e 0 0 * (e 1 1 * e 2 2 - e 1 2 * e 2 1)
    - e 0 1 * (e 1 0 * e 2 2 - e 1 2 * e 2 0)
    + e 0 2 * (e 1 0 * e 2 1 - e 1 1 * e 2 0)

/-- `adjInt(M)[i][j]` (R128), as written out there. -/
def adjInt (M : M3) (i j : Fin 3) : Int :=
  let e := entryInt M
  match i, j with
  | 0, 0 => e 1 1 * e 2 2 - e 1 2 * e 2 1
  | 0, 1 => -(e 0 1 * e 2 2 - e 0 2 * e 2 1)
  | 0, 2 => e 0 1 * e 1 2 - e 0 2 * e 1 1
  | 1, 0 => -(e 1 0 * e 2 2 - e 1 2 * e 2 0)
  | 1, 1 => e 0 0 * e 2 2 - e 0 2 * e 2 0
  | 1, 2 => -(e 0 0 * e 1 2 - e 0 2 * e 1 0)
  | 2, 0 => e 1 0 * e 2 1 - e 1 1 * e 2 0
  | 2, 1 => -(e 0 0 * e 2 1 - e 0 1 * e 2 0)
  | 2, 2 => e 0 0 * e 1 1 - e 0 1 * e 1 0

/-- An integer reduced modulo 256 to its Euclidean residue (R10, R120). -/
def residue (z : Int) : Byte := BitVec.ofInt 8 z

/-- The adjugate modulo 256 (R129). -/
def adj3 (M : M3) : M3 := fun i j => residue (adjInt M i j)

/-- `invertMod(M)` (R130): `none` where the determinant has no inverse modulo 256. -/
def invertMod (M : M3) : Option M3 :=
  let dInv := inv256 (residue (det3 M))
  if dInv = 0#8 then none
  else some fun i j => residue (adjInt M i j * dInv.toNat)

/-- `matMulVecMod(K, v)` (R133): each row's exact sum, reduced after summation. -/
def matMulVecMod (K : M3) (u : V3) : V3 := fun i =>
  residue (entryInt K i 0 * (u 0).toNat + entryInt K i 1 * (u 1).toNat + entryInt K i 2 * (u 2).toNat)

/-- SINV (R123). -/
def execSinv (d src : XReg) (s : State) : Host.Outcome State Fault Refusal :=
  let r := inv256 ((readX src s).setWidth 8)
  .next (complete (setNi (r == 0#8) (writeX d (wordOfByte r) s)))

/-- DET3 (R127): the exact determinant in 32-bit two's complement. -/
def execDet3 (d : XReg) (src : WReg) (s : State) : Host.Outcome State Fault Refusal :=
  .next (complete (writeX d (BitVec.ofInt 32 (det3 (m3Of (readW src s)))) s))

/-- ADJ3 (R129). -/
def execAdj3 (d src : WReg) (s : State) : Host.Outcome State Fault Refusal :=
  .next (complete (writeW d (wideOfM3 (adj3 (m3Of (readW src s)))) s))

/-- INV3 (R132): on failure NI = 1 and the destination is not written. -/
def execInv3 (d src : WReg) (s : State) : Host.Outcome State Fault Refusal :=
  match invertMod (m3Of (readW src s)) with
  | none => .next (complete (setNi true s))
  | some R => .next (complete (setNi false (writeW d (wideOfM3 R) s)))

/-- MVM3, alias CRYPT (R134, R135). -/
def execMvm3 (d k v : WReg) (s : State) : Host.Outcome State Fault Refusal :=
  .next (complete (writeW d (wideOfV3 (matMulVecMod (m3Of (readW k s)) (v3Of (readW v s)))) s))

end Sys2Proof.Machine
end

