-- ==== Sys2Proof/Machine/Cipher.lean ====
section
/-! DEFINITION. The 3-byte block cipher and NOP: LOCK, UNLOCK, NOP (43_cipher.md). -/

namespace Sys2Proof.Machine

/-- The three masks of a block, drawn in byte order (R211, R213). -/
structure Masks where
  m0 : Byte
  m1 : Byte
  m2 : Byte
deriving DecidableEq, Repr

/-- Three draws one after another (R211, R213); a draw that never ends never lets the next begin. -/
def drawMasks (chain : LfsrChain) (v : Wide) : Drawn Masks :=
  match draw chain v with
  | .hang v1 n1 => .hang v1 n1
  | .drew m0 v1 n1 =>
    match draw chain v1 with
    | .hang v2 n2 => .hang v2 (n1 + n2)
    | .drew m1 v2 n2 =>
      match draw chain v2 with
      | .hang v3 n3 => .hang v3 (n1 + n2 + n3)
      | .drew m2 v3 n3 => .drew ⟨m0, m1, m2⟩ v3 (n1 + n2 + n3)

/-- The element-wise product modulo 256 of the masks and a block (R211). -/
def maskBlock (m : Masks) (b : V3) : V3
  | 0 => b 0 * m.m0
  | 1 => b 1 * m.m1
  | 2 => b 2 * m.m2

/-- The inverses modulo 256 of the masks (R213). -/
def invMasks (m : Masks) : Masks := ⟨inv256 m.m0, inv256 m.m1, inv256 m.m2⟩

/-- A masked transform (R211, R213): draw the masks, multiply the block by `factor` of them, apply the
key.  A draw that never ends leaves the command uncompleted and the destination unwritten (R186; log 7). -/
def maskedTransform (factor : Masks → Masks) (d k b : WReg) (s : State) :
    Host.Outcome State Fault Refusal :=
  let K := m3Of (readW k s)
  let u := v3Of (readW b s)
  match drawMasks s.params.chain s.l with
  | .drew m v calls =>
    .next (complete (writeW d (wideOfV3 (matMulVecMod K (maskBlock (factor m) u))) (advanceL v calls s)))
  | .hang v calls => .next (advanceL v calls s)

/-- LOCK (R211, R212). -/
def execLock (d k b : WReg) (s : State) : Host.Outcome State Fault Refusal :=
  maskedTransform (fun m => m) d k b s

/-- UNLOCK (R213, R214): the inverse masks, the same key (R215). -/
def execUnlock (d k b : WReg) (s : State) : Host.Outcome State Fault Refusal :=
  maskedTransform invMasks d k b s

/-- NOP (R220): only BUSY and DONE change. -/
def execNop (s : State) : Host.Outcome State Fault Refusal := .next (complete s)

end Sys2Proof.Machine
end

