-- ==== Sys2Proof/Machine/Gf2.lean ====
section
/-! DEFINITION. The GF(2) unit: GMM, GMV, GINV, GISINV (41_gf2.md). -/

namespace Sys2Proof.Machine

/-- `parity(v)`: the XOR of all bits of a byte (00_scope.md R9). -/
def parity (b : Byte) : Bool :=
  b.getLsbD 0 ^^ b.getLsbD 1 ^^ b.getLsbD 2 ^^ b.getLsbD 3 ^^ b.getLsbD 4 ^^ b.getLsbD 5
    ^^ b.getLsbD 6 ^^ b.getLsbD 7

/-- `matMulGF2(A, B)[i][j]` (R151): the XOR over `k` of `A[i][k] & B[k][j]`. -/
def gf2ProductElem (A B : B8) (i j : Fin 8) : Bool :=
  (List.finRange 8).foldl (fun acc k => acc ^^ (b8Elem A i k && b8Elem B k j)) false

/-- `matMulGF2(A, B)` (R151). -/
def matMulGf2 (A B : B8) : B8 :=
  let row := fun i => byteOfBits (gf2ProductElem A B i)
  #v[row 0, row 1, row 2, row 3, row 4, row 5, row 6, row 7]

/-- `matVecMulGF2(A, x)` (R152, R153): bit `7 - i` of the result is `parity(row_i & x)`. -/
def matVecMulGf2 (A : B8) (u : Byte) : Byte := byteOfBits fun i => parity (A[i] &&& u)

/-- The augmented matrix of R154: 16-bit rows, `A` in bits 15:8, the other half in bits 7:0. -/
abbrev Augmented := Vector (BitVec 16) 8

/-- Row `i` of the identity matrix (R150: column `j` is bit `7 - j`). -/
def identityRow (i : Fin 8) : Byte := 0x80#8 >>> i.val

/-- `[A | I]` (R154). -/
def augment (A : B8) : Augmented :=
  let row := fun i : Fin 8 => A[i] ++ identityRow i
  #v[row 0, row 1, row 2, row 3, row 4, row 5, row 6, row 7]

/-- Column `c` of a row of the left half: bit `15 - c` (R150, R154). -/
def columnBit (row : BitVec 16) (c : Fin 8) : Bool := row.getLsbD (15 - c.val)

/-- The pivot of column `c` (R154): the first row at or below row `c` with a 1 in that column. -/
def pivotRow (T : Augmented) (c : Fin 8) : Option (Fin 8) :=
  (List.finRange 8).find? fun r => decide (c ≤ r) && columnBit T[r] c

/-- `swap T[c], T[p]` (R154). -/
def swapRows (T : Augmented) (c p : Fin 8) : Augmented := (T.set c T[p]).set p T[c]

/-- XOR row `c` into every other row with a 1 in column `c` (R154). -/
def clearColumn (T : Augmented) (c : Fin 8) : Augmented :=
  let row := fun r : Fin 8 => if r ≠ c ∧ columnBit T[r] c = true then T[r] ^^^ T[c] else T[r]
  #v[row 0, row 1, row 2, row 3, row 4, row 5, row 6, row 7]

/-- One column pass of Gauss–Jordan elimination (R154); `none` where there is no pivot. -/
def columnPass (T : Augmented) (c : Fin 8) : Option Augmented :=
  match pivotRow T c with
  | none => none
  | some p => some (clearColumn (swapRows T c p) c)

/-- `invertGF2(A)` (R154): the eight column passes, then the right half. -/
def invertGf2 (A : B8) : Option B8 :=
  match (List.finRange 8).foldlM columnPass (augment A) with
  | none => none
  | some T => some (T.map fun row => row.setWidth 8)

/-- `isInvertibleGF2(A)` (R157). -/
def isInvertibleGf2 (A : B8) : Bool := (invertGf2 A).isSome

/-- GMM (R151). -/
def execGmm (d a b : WReg) (s : State) : Host.Outcome State Fault Refusal :=
  .next (complete (writeW d (wideOfB8 (matMulGf2 (b8Of (readW a s)) (b8Of (readW b s)))) s))

/-- GMV (R153). -/
def execGmv (d a v : WReg) (s : State) : Host.Outcome State Fault Refusal :=
  .next (complete (writeW d (wideOfVecByte (matVecMulGf2 (b8Of (readW a s)) (vecByteOf (readW v s)))) s))

/-- GINV (R156): on failure NI = 1 and the destination is not written. -/
def execGinv (d src : WReg) (s : State) : Host.Outcome State Fault Refusal :=
  match invertGf2 (b8Of (readW src s)) with
  | none => .next (complete (setNi true s))
  | some R => .next (complete (setNi false (writeW d (wideOfB8 R) s)))

/-- GISINV (R158). -/
def execGisinv (d : XReg) (src : WReg) (s : State) : Host.Outcome State Fault Refusal :=
  let ok := isInvertibleGf2 (b8Of (readW src s))
  .next (complete (setNi (!ok) (writeX d (if ok then 1#32 else 0#32) s)))

end Sys2Proof.Machine
end

