-- ==== Sys2Proof/Machine/Dispatch.lean ====
section
/-! DEFINITION. One arm per command (30_encoding.md R105). -/

namespace Sys2Proof.Machine

def exec (i : Instr) (s : State) : Host.Outcome State Fault Refusal :=
  match i with
  | .nop => Sys2Proof.Machine.execNop s
  | .sinv d src => Sys2Proof.Machine.execSinv d src s
  | .det3 d src => Sys2Proof.Machine.execDet3 d src s
  | .adj3 d src => Sys2Proof.Machine.execAdj3 d src s
  | .inv3 d src => Sys2Proof.Machine.execInv3 d src s
  | .mvm3 d k v => Sys2Proof.Machine.execMvm3 d k v s
  | .gmm d a b => Sys2Proof.Machine.execGmm d a b s
  | .gmv d a v => Sys2Proof.Machine.execGmv d a v s
  | .ginv d src => Sys2Proof.Machine.execGinv d src s
  | .gisinv d src => Sys2Proof.Machine.execGisinv d src s
  | .lseed => Sys2Proof.Machine.execLseed s
  | .lload src => Sys2Proof.Machine.execLload src s
  | .lstore d => Sys2Proof.Machine.execLstore d s
  | .lcall d n => Sys2Proof.Machine.execLcall d n s
  | .ldraw d => Sys2Proof.Machine.execLdraw d s
  | .lock d k b => Sys2Proof.Machine.execLock d k b s
  | .unlock d k b => Sys2Proof.Machine.execUnlock d k b s

end Sys2Proof.Machine
end

