-- ==== Sys2Proof/Machine/HostAccess.lean ====
section
/-! DEFINITION. Host accesses to the MMIO window: the map, the errors and their priority, reads and writes
(20_memory.md, 60_exceptions.md). -/

namespace Sys2Proof.Machine

/-- A word of the window (R71). -/
inductive Target where
  | id
  | ctrl
  | status
  | cmd
  | callcnt
  | errinfo
  | wWindow (i : WReg) (k : Fin 4)
  | xWindow (i : XReg)
  | lWindow (k : Fin 4)
deriving DecidableEq, Repr

/-- The map of R71 and the window addressing of R72: the word at an offset that is a multiple of 4;
`none` where the offset is unmapped (R75). -/
def targetAt (off : Nat) : Option Target :=
  if off = 0x000 then some .id
  else if off = 0x004 then some .ctrl
  else if off = 0x008 then some .status
  else if off = 0x00C then some .cmd
  else if off = 0x010 then some .callcnt
  else if off = 0x014 then some .errinfo
  else if 0x040 ≤ off ∧ off < 0x0C0 then
    some (.wWindow (Fin.ofNat 8 ((off - 0x040) / 16)) (Fin.ofNat 4 ((off - 0x040) % 16 / 4)))
  else if 0x0C0 ≤ off ∧ off < 0x0E0 then some (.xWindow (Fin.ofNat 8 ((off - 0x0C0) / 4)))
  else if 0x0E0 ≤ off ∧ off < 0x0F0 then some (.lWindow (Fin.ofNat 4 ((off - 0x0E0) / 4)))
  else none

/-- An access of another width than 32 bits, or at an offset that is no multiple of 4 (R73). -/
def badAccess (width : AccessWidth) (off : BitVec 12) : Bool :=
  width != .bits32 || off.toNat % 4 != 0

/-- Access info (R47, R241): bits 31:17 zero, W in bit 16, bits 15:12 zero, the offset in bits 11:0. -/
def accessInfo (isWrite : Bool) (off : BitVec 12) : Word :=
  0#15 ++ BitVec.ofBool isWrite ++ 0#4 ++ off

/-- Whether a read of the word returns any value while BUSY = 1 (R78): the W, X and L windows and
CALLCNT. -/
def freeWhileBusy : Target → Bool
  | .id => false
  | .ctrl => false
  | .status => false
  | .cmd => false
  | .callcnt => true
  | .errinfo => false
  | .wWindow _ _ => true
  | .xWindow _ => true
  | .lWindow _ => true

/-- The value a mapped word holds (R39, R43 to R47, R72, R74). -/
def valueAt (t : Target) (s : State) : Word :=
  match t with
  | .id => Config.idValue
  | .ctrl => ctrlWord s
  | .status => statusWord s
  | .cmd => s.cmd
  | .callcnt => s.callcnt
  | .errinfo => s.errinfo
  | .wWindow i k => wordOf (readW i s) k
  | .xWindow i => readX i s
  | .lWindow k => wordOf s.l k

/-- The answer to the host: the value a read returns, `none` for a write. -/
def answer (v : Option Word) (s : State) : State := { s with reply := v }

/-- A free value of R78, drawn once.  DESIGN CHOICE (log 5): it is a function of the count of such reads
alone, so it does not depend on W, X, L or CALLCNT, where U1 allows the old value, the final value or
an intermediate L; unsafe for a claim of that independence. -/
def answerFree (s : State) : State :=
  { s with reply := some (Config.busyRead s.freeCount), freeCount := s.freeCount + 1 }

/-- A read of a mapped word: no side effect on FE-CORE (R77), its exact value, or any value while
BUSY = 1 where R78 says so. -/
def readTarget (t : Target) (s : State) : State :=
  if s.busy && freeWhileBusy t then answerFree s else answer (some (valueAt t s)) s

/-- A host read (R73, R75, R243, R244): BAD_ACCESS, then UNMAPPED, each returning 0. -/
def hostRead (width : AccessWidth) (off : BitVec 12) (s : State) : State :=
  if badAccess width off then answer (some 0#32) (recordError .badAccess (accessInfo false off) s)
  else
    match targetAt off.toNat with
    | none => answer (some 0#32) (recordError .unmapped (accessInfo false off) s)
    | some t => readTarget t s

/-- A write to a window word (R72, R78): BUSY_WRITE while BUSY = 1, else `store`. -/
def writeWindow (off : BitVec 12) (store : State) (s : State) : State :=
  if s.busy then recordError .busyWrite (accessInfo true off) s else store

/-- A 32-bit aligned write of `v` to a mapped word at offset `off` (R76, R78, R39, R41, R43, R101). -/
def writeTarget (t : Target) (off : BitVec 12) (v : Word) (s : State) : State :=
  match t with
  | .id => recordError .roWrite (accessInfo true off) s
  | .callcnt => recordError .roWrite (accessInfo true off) s
  | .errinfo => recordError .roWrite (accessInfo true off) s
  | .ctrl => writeCtrl v s
  | .status => writeStatus v s
  | .cmd => issueCommand v s
  | .wWindow i k => writeWindow off (writeW i (withWord (readW i s) k v) s) s
  | .xWindow i => writeWindow off (writeX i v s) s
  | .lWindow k => writeWindow off (setL (withWord s.l k v) s) s

/-- A host write (R73, R75, R244): BAD_ACCESS, then UNMAPPED, then what the word does with it. -/
def hostWrite (width : AccessWidth) (off : BitVec 12) (v : Word) (s : State) : State :=
  if badAccess width off then answer none (recordError .badAccess (accessInfo true off) s)
  else
    match targetAt off.toNat with
    | none => answer none (recordError .unmapped (accessInfo true off) s)
    | some t => answer none (writeTarget t off v s)

/-- A host access at an offset of the window. -/
def windowAccess (a : Access) (off : BitVec 12) (s : State) : State :=
  match a.kind with
  | .read => hostRead a.width off s
  | .write v => hostWrite a.width off v s

/-- A host access at a byte address (R70): the window is the 4096 bytes from `P_BASE`; an address
outside it is not in FE-CORE's address space (log 10). -/
def hostAccess (a : Access) (s : State) : Host.Outcome State Fault Refusal :=
  if a.addr / 4096 = s.params.page then .next (windowAccess a (BitVec.ofNat 12 a.addr) s)
  else .fault (.outsideWindow a.addr)

end Sys2Proof.Machine
end

