-- ==== Sys2Proof/Machine/Step.lean ====
section
/-! DEFINITION. One step of the machine: the turn of the agent that moves next (10_state.md R30, R49;
20_memory.md R79, R80). -/

namespace Sys2Proof.Machine

/-- The engine's turn (R49): it executes the command in the latch; with an empty latch it is idle. -/
def engineTurn (s : State) : Host.Outcome State Fault Refusal :=
  match fetchWord s with
  | none => .next s
  | some c =>
    match decode c with
    | .command i => exec i s
    | .illegalOpcode => .refused (.undecodedLatch c)
    | .illegalOperand => .refused (.undecodedLatch c)

/-- One step: the next turn of `turns`, or the engine's where none is left (R292: an accepted command
is completed in the end; log 3). -/
def step (s : State) : Host.Outcome State Fault Refusal :=
  match s.turns with
  | [] => engineTurn s
  | .engine :: ts => engineTurn (setTurns ts s)
  | .host a :: ts => hostAccess a (setTurns ts s)
  | .reset :: ts => .next (resetState (setTurns ts s))

/-- The turns of a machine whose engine moves next. -/
def engineFirst : List Turn → List Turn
  | [] => []
  | .engine :: ts => .engine :: ts
  | .host a :: ts => .engine :: .host a :: ts
  | .reset :: ts => .engine :: .reset :: ts

/-- The state in which FE-CORE has accepted the command word `w` (R101) and the engine moves next, so
that the very next step fetches and runs it (log 11). -/
def State.withFetchWord (s : State) (nbits w : Nat) : State :=
  setTurns (engineFirst s.turns) (acceptCommand (BitVec.ofNat 32 (w % 2 ^ nbits)) s)

end Sys2Proof.Machine
end

