-- ==== Sys2Proof/Safety.lean ====
section
/-! DEFINITION. What counts as a safe run of FE-CORE, and the frames and relations that the statements use. -/

namespace Sys2Proof.Machine

/-- The latch is sound (R49, R101, R44, R41): the word it holds is a command, is the CMD readback,
and DONE is 0 while it is there. -/
abbrev latchSound (s : State) : Prop :=
  match s.pend with
  | none => True
  | some c => (decode c).instr?.isSome = true ∧ s.cmd = c ∧ s.done = false

/-- The error registers agree (R43, R242): ERR = 1 exactly when ECODE is an error's code, and
ERRINFO is 0 while ERR = 0. -/
abbrev errorSound (s : State) : Prop :=
  (s.err = true ↔ s.ecode ≠ .noError) ∧ (s.err = false → s.errinfo = 0#32)

/-- CMD reads as a command word or 0, which is NOP's word (R44). -/
abbrev cmdSound (s : State) : Prop := (decode s.cmd).instr?.isSome = true

/-- The invariant of FE-CORE: at reset and after every step. -/
abbrev CoreInv (s : State) : Prop := latchSound s ∧ errorSound s ∧ cmdSound s

/-- The state is what a reset leaves (R51), as the host reads it: every register at its reset value,
the latch empty, IRQ low.  Byte 0 of L is 01, byte 15 is 80, bytes 1..14 are 00. -/
abbrev atReset (s : State) : Prop :=
  (∀ i : WReg, ∀ k : Fin 16, byteOf s.w[i] k.val = 0#8) ∧
  (∀ i : XReg, s.x[i] = 0#32) ∧
  (∀ k : Fin 16, byteOf s.l k.val = if k = 0 then 0x01#8 else if k = 15 then 0x80#8 else 0x00#8) ∧
  ctrlWord s = 0#32 ∧ statusWord s = 0#32 ∧ s.cmd = 0#32 ∧ s.callcnt = 0#32 ∧ s.errinfo = 0#32 ∧
  valueAt .id s = 0x46454331#32 ∧ s.pend = none ∧ s.irq = false

/-- The command has completed (R49): BUSY = 0, the latch empty, DONE = 1. -/
abbrev completed (t : State) : Prop := t.pend = none ∧ t.done = true

/-- What no command changes: CTRL, ERR, ECODE, ERRINFO, the CMD readback, and the model's own fields. -/
abbrev sameControl (s t : State) : Prop :=
  t.params = s.params ∧ t.ie = s.ie ∧ t.err = s.err ∧ t.ecode = s.ecode ∧ t.errinfo = s.errinfo ∧
  t.cmd = s.cmd ∧ t.turns = s.turns ∧ t.reply = s.reply ∧ t.freeCount = s.freeCount

/-- The generator is untouched: L and CALLCNT (R46). -/
abbrev sameGenerator (s t : State) : Prop := t.l = s.l ∧ t.callcnt = s.callcnt

/-- Every wide register but `d` is untouched. -/
abbrev sameWBut (d : WReg) (s t : State) : Prop := ∀ i : WReg, i ≠ d → t.w[i] = s.w[i]

/-- Every scalar register but `d` is untouched. -/
abbrev sameXBut (d : XReg) (s t : State) : Prop := ∀ i : XReg, i ≠ d → t.x[i] = s.x[i]

/-- Every wide and every scalar register is untouched. -/
abbrev sameData (s t : State) : Prop := t.w = s.w ∧ t.x = s.x

/-- Bit 0 of the output of the `k`-th call from `v` (R184's test). -/
def callOdd (chain : LfsrChain) (v : Wide) (k : Nat) : Bool :=
  (callOutput (callsL chain k v)).getLsbD 0

/-- The draw of R184 from `v` ends with its `k`-th call: mask `m`, register `v'`. -/
abbrev drawsTo (chain : LfsrChain) (v : Wide) (m : Byte) (v' : Wide) (k : Nat) : Prop :=
  1 ≤ k ∧ (∀ j, 1 ≤ j → j < k → callOdd chain v j = false) ∧ callOdd chain v k = true ∧
  v' = callsL chain k v ∧ m = (callOutput v').setWidth 8

/-- The draw of R184 from `v` never ends (R186): every call gives an even byte. -/
abbrev drawNeverEnds (chain : LfsrChain) (v : Wide) : Prop := ∀ j, 1 ≤ j → callOdd chain v j = false

/-- A turn that performs a reset (R280, R282): the reset input's, or a 32-bit aligned write of a word
with bit 0 set to CTRL. -/
abbrev isResetTurn (p : Params) : Turn → Prop
  | .engine => False
  | .reset => True
  | .host a => a.addr = p.base + 4 ∧ a.width = .bits32 ∧ ∃ v : Word, a.kind = .write v ∧ v.getLsbD 0 = true

/-- The host's 32-bit read of the word at an offset of the window. -/
abbrev readAt (p : Params) (off : Nat) : Access := ⟨p.base + off, .bits32, .read⟩

/-- The host's 32-bit write of `v` to the word at an offset of the window. -/
abbrev writeAt (p : Params) (off : Nat) (v : Word) : Access := ⟨p.base + off, .bits32, .write v⟩

/-- The M3 view of a wide register as an integer matrix (R33, R120). -/
def ringMatrix (v : Wide) : Matrix (Fin 3) (Fin 3) ℤ :=
  Matrix.of fun i j => ((byteOf v (3 * i.val + j.val)).toNat : ℤ)

/-- The M3 view of a wide register as a matrix over Z/256. -/
def ringMatrixMod (v : Wide) : Matrix (Fin 3) (Fin 3) (ZMod 256) :=
  Matrix.of fun i j => ((byteOf v (3 * i.val + j.val)).toNat : ZMod 256)

/-- The V3 view of a wide register as a vector over Z/256 (R33). -/
def ringVecMod (v : Wide) : Fin 3 → ZMod 256 := fun i => ((byteOf v i.val).toNat : ZMod 256)

/-- The B8 view of a wide register as a matrix over GF(2) (R33, R150). -/
def gf2Matrix (v : Wide) : Matrix (Fin 8) (Fin 8) (ZMod 2) :=
  Matrix.of fun i j => if (byteOf v i.val).getLsbD (7 - j.val) then 1 else 0

/-- The b8 view of a wide register as a vector over GF(2) (R33, R150). -/
def gf2Vec (v : Wide) : Fin 8 → ZMod 2 :=
  fun k => if (byteOf v 0).getLsbD (7 - k.val) then 1 else 0

/-- The bytes from `n` on are zero (R34). -/
abbrev zeroFrom (n : Nat) (v : Wide) : Prop := ∀ k, n ≤ k → k < 16 → byteOf v k = 0#8

/-- The three draws of a block from `v`, one after another (R211): masks, last register, total calls.
Each draw takes at most 128 calls, as every draw that ends does (R185). -/
abbrev blockDrawsTo (chain : LfsrChain) (v : Wide) (m : Fin 3 → Byte) (v3 : Wide) (calls : Nat) : Prop :=
  ∃ v1 v2 k1 k2 k3, drawsTo chain v (m 0) v1 k1 ∧ drawsTo chain v1 (m 1) v2 k2 ∧
    drawsTo chain v2 (m 2) v3 k3 ∧ k1 ≤ 128 ∧ k2 ≤ 128 ∧ k3 ≤ 128 ∧ calls = k1 + k2 + k3

/-- One of the three draws of a block from `v` never ends (R186, R212). -/
abbrev blockDrawsNeverEnd (chain : LfsrChain) (v : Wide) : Prop :=
  drawNeverEnds chain v ∨
  ∃ m v1 k, drawsTo chain v m v1 k ∧
    (drawNeverEnds chain v1 ∨ ∃ m' v2 k', drawsTo chain v1 m' v2 k' ∧ drawNeverEnds chain v2)

/-- Whether a command never completes from register `v` (R186, R240). -/
def neverCompletes (chain : LfsrChain) (v : Wide) : Instr → Prop
  | .nop => False
  | .sinv _ _ => False
  | .det3 _ _ => False
  | .adj3 _ _ => False
  | .inv3 _ _ => False
  | .mvm3 _ _ _ => False
  | .gmm _ _ _ => False
  | .gmv _ _ _ => False
  | .ginv _ _ => False
  | .gisinv _ _ => False
  | .lseed => False
  | .lload _ => False
  | .lstore _ => False
  | .lcall _ _ => False
  | .ldraw _ => drawNeverEnds chain v
  | .lock _ _ _ => blockDrawsNeverEnd chain v
  | .unlock _ _ _ => blockDrawsNeverEnd chain v

/-- The engine is hung (R186): the latch holds a command that never completes. -/
def hung (s : State) : Prop :=
  ∃ c i, s.pend = some c ∧ decode c = .command i ∧ neverCompletes s.params.chain s.l i

/-- Whether a turn is possible: an access lies in the window (R70). -/
abbrev inWindow (p : Params) : Turn → Prop
  | .engine => True
  | .reset => True
  | .host a => p.base ≤ a.addr ∧ a.addr < p.base + 4096

/-- `n` executions of one command, one after another, stopping at the first that stops. -/
def execTimes (i : Instr) : Nat → State → Host.Outcome State Fault Refusal
  | 0, s => .next s
  | n + 1, s =>
    match exec i s with
    | .next t => execTimes i n t
    | .fault r => .fault r
    | .refused r => .refused r

/-- Whether a command word is a command (R104, R105): some row's match and mask fit, and LCALL's
count is not 0. -/
abbrev matchesRow (c : Word) (row : OpcodeRow) : Prop :=
  c &&& row.mask = row.pattern ∧ (row.mnemonic = "LCALL" → c.extractLsb' 0 16 ≠ 0#16)

/-- The reserved opcodes of R106. -/
def reservedOpcode (n : Nat) : Bool :=
  n == 0x06 || n == 0x07 || (0x0C ≤ n && n ≤ 0x0F) || (0x15 ≤ n && n ≤ 0x17) || 0x1A ≤ n

/-- The error an access raises, with what ERRINFO records for it: the table of R241 in the priority of
R244.  `off` is the access's offset in the window, and `busy` is STATUS.BUSY. -/
def raisedError (busy : Bool) (width : AccessWidth) (kind : AccessKind) (off : Nat) : Option (ECode × Word) :=
  let readInfo := BitVec.ofNat 32 off
  let writeInfo := BitVec.ofNat 32 (0x10000 + off)
  let aligned := width == .bits32 && off % 4 == 0
  let mapped := off < 0x018 || (0x040 ≤ off && off < 0x0F0)
  match kind with
  | .read =>
    if !aligned then some (.badAccess, readInfo)
    else if !mapped then some (.unmapped, readInfo)
    else none
  | .write c =>
    if !aligned then some (.badAccess, writeInfo)
    else if !mapped then some (.unmapped, writeInfo)
    else if off = 0x000 ∨ off = 0x010 ∨ off = 0x014 then some (.roWrite, writeInfo)
    else if busy && off == 0x00C then some (.busyWrite, c)
    else if busy && 0x040 ≤ off then some (.busyWrite, writeInfo)
    else if off = 0x00C ∧ reservedOpcode (c.toNat / 2 ^ 26) = true then some (.illegalOpcode, c)
    else if off = 0x00C ∧ ¬ (∃ row ∈ opcodeTable, matchesRow c row) then some (.illegalOperand, c)
    else none

end Sys2Proof.Machine
end

