-- ==== Sys2Proof/Certificates/Slice0/Obligations.lean ====
section
/-! DEFINITION. The statements about the model, each from the numbered rules of spec/ that its docstring names. -/

open Sys2Proof Sys2Proof.Machine

/-! ## Reset and invariants -/

/-- R51: the value of every piece of state after a hardware reset (the reset input's turn), after a
soft reset (a CTRL write with SRST = 1, its IE bit discarded), and in the reset state itself. -/
def Obligations.ResetGivesEveryRegisterItsValue : Prop :=
  atReset State.reset ∧
  (∀ (s : State) (ts : List Turn), s.turns = .reset :: ts →
    ∃ t, step s = .next t ∧ atReset t) ∧
  (∀ (s : State) (ts : List Turn) (v : Word), s.turns = .host (writeAt s.params 0x004 v) :: ts →
    v.getLsbD 0 = true → ∃ t, step s = .next t ∧ atReset t)

/-- The reset state meets the invariant, whatever the parameters. -/
def Obligations.ResetMeetsInvariant : Prop :=
  CoreInv State.reset ∧ ∀ p : Params, CoreInv (State.resetWith p)

/-- Every step keeps the invariant: the latch holds only commands and agrees with CMD and DONE
(R49, R101, R41, R44), and ERR, ECODE and ERRINFO agree (R43). -/
def Obligations.EveryStepKeepsInvariant : Prop :=
  ∀ s t : State, CoreInv s → step s = .next t → CoreInv t

/-- From every state that meets the invariant a step goes on, unless the host's access lies outside
the window (the model's choice, log 10), and then it faults. -/
def Obligations.StepStopsOnlyOutsideTheWindow : Prop :=
  ∀ s : State, CoreInv s →
    ((∀ turn ts, s.turns = turn :: ts → inWindow s.params turn) → ∃ t, step s = .next t) ∧
    (∀ a ts, s.turns = .host a :: ts → ¬ inWindow s.params (.host a) →
      step s = .fault (.outsideWindow a.addr))

/-- The implementation parameters of R7 never change (the model's field, log 1). -/
def Obligations.ParametersNeverChange : Prop :=
  ∀ s t : State, step s = .next t → t.params = s.params

/-! ## Encoding -/

/-- Decoding the word of a well-formed command gives the command back, for every operand value (R102 to R105). -/
def Obligations.DecodeOfEncodeIsIdentity : Prop :=
  ∀ i : Instr, i.wellFormed = true → decode (encode i) = .command i

/-- A word that decodes is the word of the well-formed command it decodes to: no bit is dropped (R104). -/
def Obligations.EncodeOfDecodeIsIdentity : Prop :=
  ∀ (c : Word) (i : Instr), decode c = .command i → encode i = c ∧ i.wellFormed = true

/-- R105, R104, R106: a word is a row's command exactly when the row's match and mask fit (and LCALL's
count is not 0); it is ILLEGAL_OPCODE exactly when its OPC is reserved, and ILLEGAL_OPERAND otherwise. -/
def Obligations.WordsAreClassifiedByTheOpcodeTable : Prop :=
  ∀ c : Word,
    (∀ row ∈ opcodeTable, matchesRow c row ↔ ∃ i, decode c = .command i ∧ i.mnemonic = row.mnemonic) ∧
    (decode c = .illegalOpcode ↔ reservedOpcode (c.toNat / 2 ^ 26) = true) ∧
    (decode c = .illegalOperand ↔
      reservedOpcode (c.toNat / 2 ^ 26) = false ∧ ¬ ∃ row ∈ opcodeTable, matchesRow c row)

/-- R108: the three encoding examples, in both directions. -/
def Obligations.EncodingExamples : Prop :=
  encode (.mvm3 2 1 0) = 0x05#32 <<< 26 ||| 2#32 <<< 23 ||| 1#32 <<< 20 ||| 0#32 <<< 17 ∧
  encode (.mvm3 2 1 0) = 0x15100000#32 ∧ decode 0x15100000#32 = .command (.mvm3 2 1 0) ∧
  encode (.lcall 0 1000#16) = 0x13#32 <<< 26 ||| 1000#32 ∧
  encode (.lcall 0 1000#16) = 0x4C0003E8#32 ∧ decode 0x4C0003E8#32 = .command (.lcall 0 1000#16) ∧
  encode (.lock 3 1 2) = 0x60000000#32 ||| 3#32 <<< 23 ||| 1#32 <<< 20 ||| 2#32 <<< 17 ∧
  encode (.lock 3 1 2) = 0x61940000#32 ∧ decode 0x61940000#32 = .command (.lock 3 1 2)

/-! ## The engine's step and the host's accesses -/

/-- R49, R79: where the latch holds the word of a command, the engine's turn is that command's meaning,
whether the turn is named in `turns` (and then used up) or no turn is left; with an empty latch the
engine is idle.  The list of turns is the model's (log 3, log 18). -/
def Obligations.StepRunsTheLatchedCommand : Prop :=
  (∀ (s : State) (c : Word) (i : Instr), s.pend = some c → decode c = .command i →
    (s.turns = [] → step s = exec i s) ∧
    (∀ ts, s.turns = .engine :: ts → step s = exec i { s with turns := ts })) ∧
  (∀ s : State, s.pend = none →
    (s.turns = [] → step s = .next s) ∧
    (∀ ts, s.turns = .engine :: ts → step s = .next { s with turns := ts }))

/-- R241 to R244, R47: one access raises at most one error, the first that applies; it is recorded if
ERR = 0, and a rejected access changes nothing else (a rejected read returns 0).  An access that
raises no error records none.  That ERRINFO takes, for an access wider than 32 bits or a burst, the
offset at which it starts is the model's reading (log 16). -/
def Obligations.AccessErrorsInPriorityOrder : Prop :=
  ∀ (s : State) (a : Access) (ts : List Turn) (off : Nat),
    s.turns = .host a :: ts → a.addr = s.params.base + off → off < 4096 →
    ∃ t, step s = .next t ∧
      (∀ e info, raisedError s.busy a.width a.kind off = some (e, info) →
        t = { s with turns := ts
                     reply := if a.kind = .read then some 0#32 else none
                     err := true
                     ecode := if s.err then s.ecode else e
                     errinfo := if s.err then s.errinfo else info }) ∧
      (raisedError s.busy a.width a.kind off = none → t.err = true →
        s.err = true ∧ t.ecode = s.ecode ∧ t.errinfo = s.errinfo)

/-- R101, R40, R41, R44: an aligned 32-bit CMD write of a command's word while BUSY = 0 is accepted:
CMD and the latch take the word, DONE is cleared, nothing else changes. -/
def Obligations.CommandWriteIsAccepted : Prop :=
  ∀ (s : State) (ts : List Turn) (i : Instr), i.wellFormed = true → s.pend = none →
    s.turns = .host (writeAt s.params 0x00C (encode i)) :: ts →
    step s = .next { s with turns := ts, reply := none, cmd := encode i, pend := some (encode i), done := false }

/-- R49, R80, R240: a command without draws, once accepted, completes in the engine's next turn, with
BUSY = 1 in between and without an error.  The schedule is the model's (log 3). -/
def Obligations.AcceptedCommandCompletes : Prop :=
  ∀ (s : State) (i : Instr), i.wellFormed = true → s.pend = none →
    s.turns = [.host (writeAt s.params 0x00C (encode i)), .engine] →
    i.mnemonic ≠ "LDRAW" → i.mnemonic ≠ "LOCK" → i.mnemonic ≠ "UNLOCK" →
    ∃ t u, step s = .next t ∧ t.busy = true ∧ step t = .next u ∧ completed u ∧ u.cmd = encode i ∧
      u.err = s.err ∧ u.ecode = s.ecode ∧ u.errinfo = s.errinfo

/-- R72, R74, R77: while BUSY = 0 an aligned 32-bit write to a W, X or L window word is read back, and
every other word of the three windows reads as it did before; no other register changes. -/
def Obligations.WindowWriteReadsBack : Prop :=
  ∀ (s : State) (ts : List Turn) (p q : Nat) (v : Word), s.pend = none →
    0x040 ≤ p → p < 0x0F0 → p % 4 = 0 → 0x040 ≤ q → q < 0x0F0 → q % 4 = 0 →
    s.turns = .host (writeAt s.params p v) :: .host (readAt s.params q) :: ts →
    ∃ t u before, step s = .next t ∧ step t = .next u ∧
      step { s with turns := .host (readAt s.params q) :: ts } = .next before ∧
      u.reply = (if q = p then some v else before.reply) ∧
      t = { s with turns := .host (readAt s.params q) :: ts, reply := none, w := t.w, x := t.x, l := t.l }

/-- R72, R74: while BUSY = 0 the word at `0x040 + 16 i + 4 k` is bytes `4k .. 4k+3` of W`i`, lowest
byte in bits 7:0; `0x0C0 + 4 i` is X`i`; `0x0E0 + 4 k` is bytes `4k .. 4k+3` of L; and a read changes
nothing. -/
def Obligations.WindowReadsAreLittleEndian : Prop :=
  ∀ (s : State) (ts : List Turn), s.pend = none →
    (∀ (i : WReg) (k : Fin 4), s.turns = .host (readAt s.params (0x040 + 16 * i.val + 4 * k.val)) :: ts →
      step s = .next { s with turns := ts, reply := some (byteOf s.w[i] (4 * k.val + 3) ++
        byteOf s.w[i] (4 * k.val + 2) ++ byteOf s.w[i] (4 * k.val + 1) ++ byteOf s.w[i] (4 * k.val)) }) ∧
    (∀ i : XReg, s.turns = .host (readAt s.params (0x0C0 + 4 * i.val)) :: ts →
      step s = .next { s with turns := ts, reply := some s.x[i] }) ∧
    (∀ k : Fin 4, s.turns = .host (readAt s.params (0x0E0 + 4 * k.val)) :: ts →
      step s = .next { s with turns := ts, reply := some (byteOf s.l (4 * k.val + 3) ++
        byteOf s.l (4 * k.val + 2) ++ byteOf s.l (4 * k.val + 1) ++ byteOf s.l (4 * k.val)) })

/-- R38 to R48, R78, R241: ID, CTRL, STATUS, CMD and ERRINFO read as their exact value, busy or idle,
and CALLCNT while idle; STATUS is read field by field, ECODE as the number R241 gives each error; a
read changes nothing. -/
def Obligations.RegisterReadsAreExact : Prop :=
  ∀ (s : State) (ts : List Turn),
    (s.turns = .host (readAt s.params 0x000) :: ts →
      step s = .next { s with turns := ts, reply := some 0x46454331#32 }) ∧
    (s.turns = .host (readAt s.params 0x004) :: ts →
      step s = .next { s with turns := ts, reply := some (if s.ie then 2#32 else 0#32) }) ∧
    (s.turns = .host (readAt s.params 0x008) :: ts →
      ∃ v : Word, step s = .next { s with turns := ts, reply := some v } ∧
        v.getLsbD 0 = s.pend.isSome ∧ v.getLsbD 1 = s.done ∧ v.getLsbD 2 = s.ni ∧ v.getLsbD 3 = s.err ∧
        (v.extractLsb' 8 8 = 0x00#8 ↔ s.ecode = .noError) ∧
        (v.extractLsb' 8 8 = 0x01#8 ↔ s.ecode = .illegalOpcode) ∧
        (v.extractLsb' 8 8 = 0x02#8 ↔ s.ecode = .illegalOperand) ∧
        (v.extractLsb' 8 8 = 0x03#8 ↔ s.ecode = .busyWrite) ∧
        (v.extractLsb' 8 8 = 0x04#8 ↔ s.ecode = .badAccess) ∧
        (v.extractLsb' 8 8 = 0x05#8 ↔ s.ecode = .unmapped) ∧
        (v.extractLsb' 8 8 = 0x06#8 ↔ s.ecode = .roWrite) ∧
        v.extractLsb' 8 8 = ecodeByte s.ecode ∧ v.extractLsb' 4 4 = 0#4 ∧ v.extractLsb' 16 16 = 0#16) ∧
    (s.turns = .host (readAt s.params 0x00C) :: ts →
      step s = .next { s with turns := ts, reply := some s.cmd }) ∧
    (s.turns = .host (readAt s.params 0x010) :: ts → s.pend = none →
      step s = .next { s with turns := ts, reply := some s.callcnt }) ∧
    (s.turns = .host (readAt s.params 0x014) :: ts →
      step s = .next { s with turns := ts, reply := some s.errinfo })

/-- R48: reserved bits of CTRL (31:2) and STATUS (7:4 and 31:16) read as 0, and the value written to
them is ignored: two writes that agree on the other bits do the same. -/
def Obligations.ReservedBitsReadZeroAndIgnoreWrites : Prop :=
  (∀ (s : State) (k : Nat), 2 ≤ k → (ctrlWord s).getLsbD k = false) ∧
  (∀ (s : State) (k : Nat), (4 ≤ k ∧ k ≤ 7) ∨ 16 ≤ k → (statusWord s).getLsbD k = false) ∧
  (∀ (s : State) (ts : List Turn) (v v' : Word),
    v &&& 0x00000003#32 = v' &&& 0x00000003#32 →
    step { s with turns := .host (writeAt s.params 0x004 v) :: ts }
      = step { s with turns := .host (writeAt s.params 0x004 v') :: ts }) ∧
  (∀ (s : State) (ts : List Turn) (v v' : Word),
    v &&& 0x0000FF0F#32 = v' &&& 0x0000FF0F#32 →
    step { s with turns := .host (writeAt s.params 0x008 v) :: ts }
      = step { s with turns := .host (writeAt s.params 0x008 v') :: ts })

/-- R41, R43: a STATUS write with bit 1 set clears DONE, with bit 3 set clears ERR, ECODE and ERRINFO;
a clear bit leaves them; nothing else changes, busy or idle. -/
def Obligations.StatusWriteClearsDoneAndErr : Prop :=
  ∀ (s : State) (ts : List Turn) (v : Word), s.turns = .host (writeAt s.params 0x008 v) :: ts →
    step s = .next { s with turns := ts, reply := none
                            done := if v.getLsbD 1 then false else s.done
                            err := if v.getLsbD 3 then false else s.err
                            ecode := if v.getLsbD 3 then .noError else s.ecode
                            errinfo := if v.getLsbD 3 then 0#32 else s.errinfo }

/-- R39: a CTRL write with SRST = 0 sets IE to bit 1 and changes nothing else, busy or idle. -/
def Obligations.CtrlWriteSetsInterruptEnable : Prop :=
  ∀ (s : State) (ts : List Turn) (v : Word), s.turns = .host (writeAt s.params 0x004 v) :: ts →
    v.getLsbD 0 = false → step s = .next { s with turns := ts, reply := none, ie := v.getLsbD 1 }

/-- R250: IRQ is low while IE = 0; a completion or an error raises it when IE = 1; a STATUS write with
bits 1 and 3 set lowers it; so does accepting a command if ERR = 0. -/
def Obligations.InterruptLineRisesAndFalls : Prop :=
  (∀ s : State, s.ie = false → s.irq = false) ∧
  (∀ (s t : State) (i : Instr), exec i s = .next t → s.ie = true → s.pend ≠ none → t.pend = none →
    t.irq = true) ∧
  (∀ (s t : State) (a : Access) (ts : List Turn) (off : Nat), s.turns = .host a :: ts →
    a.addr = s.params.base + off → off < 4096 →
    (raisedError s.busy a.width a.kind off).isSome = true → s.ie = true →
    step s = .next t → t.irq = true) ∧
  (∀ (s t : State) (ts : List Turn) (v : Word), s.turns = .host (writeAt s.params 0x008 v) :: ts →
    v.getLsbD 1 = true → v.getLsbD 3 = true → step s = .next t → t.irq = false) ∧
  (∀ (s t : State) (ts : List Turn) (i : Instr), i.wellFormed = true → s.pend = none → s.err = false →
    s.turns = .host (writeAt s.params 0x00C (encode i)) :: ts → step s = .next t → t.irq = false)

/-- R78, R246: while BUSY = 1 an access to the window that is no reset goes on and leaves the running
command alone: the latch, CMD, W, X, L, CALLCNT and NI are unchanged. -/
def Obligations.AccessesDoNotDisturbARunningCommand : Prop :=
  ∀ (s : State) (a : Access) (ts : List Turn), s.pend ≠ none → s.turns = .host a :: ts →
    inWindow s.params (.host a) → ¬ isResetTurn s.params (.host a) →
    ∃ t, step s = .next t ∧ t.pend = s.pend ∧ t.cmd = s.cmd ∧ t.w = s.w ∧ t.x = s.x ∧ t.l = s.l ∧
      t.callcnt = s.callcnt ∧ t.ni = s.ni ∧ t.turns = ts

/-- While BUSY = 1, two states that differ in W, X, L and CALLCNT alone give every access the same answer,
and leave the same STATUS, CTRL, CMD, ERRINFO and latch (R78).  For the answer to a read of the W, X
or L window or of CALLCNT this is the model's choice (log 5), not R78's: U1 lets such a read return
the old value, the final value or an intermediate L. -/
def Obligations.BusyAccessesRevealNoData : Prop :=
  ∀ (s : State) (a : Access) (ts : List Turn) (w' : Vector Wide 8) (x' : Vector Word 8) (l' : Wide) (n' : Word),
    s.pend ≠ none → s.turns = .host a :: ts → inWindow s.params (.host a) →
    ∃ t t', step s = .next t ∧ step { s with w := w', x := x', l := l', callcnt := n' } = .next t' ∧
      t'.reply = t.reply ∧ statusWord t' = statusWord t ∧ t'.errinfo = t.errinfo ∧ ctrlWord t' = ctrlWord t ∧
      t'.cmd = t.cmd ∧ t'.pend = t.pend

/-! ## What commands leave alone -/

/-- R240, R241: no command raises an error or touches CTRL, ERR, ECODE, ERRINFO or the CMD readback,
for every command and every state (the model's own fields among them). -/
def Obligations.CommandsRaiseNoError : Prop :=
  ∀ (i : Instr) (s : State), ∃ t, exec i s = .next t ∧ sameControl s t

/-- R42: NI is written only by SINV, INV3, GINV and GISINV. -/
def Obligations.OnlyFourCommandsWriteNi : Prop :=
  ∀ (i : Instr) (s t : State), exec i s = .next t → t.ni ≠ s.ni →
    i.mnemonic = "SINV" ∨ i.mnemonic = "INV3" ∨ i.mnemonic = "GINV" ∨ i.mnemonic = "GISINV"

/-- R46, R35: CALLCNT is changed only by LCALL, LDRAW, LOCK and UNLOCK, and L only by these and by LSEED
and LLOAD. -/
def Obligations.OnlyGeneratorCommandsMoveTheGenerator : Prop :=
  ∀ (i : Instr) (s t : State), exec i s = .next t →
    (t.callcnt ≠ s.callcnt → i.mnemonic = "LCALL" ∨ i.mnemonic = "LDRAW" ∨ i.mnemonic = "LOCK" ∨
      i.mnemonic = "UNLOCK") ∧
    (t.l ≠ s.l → i.mnemonic = "LCALL" ∨ i.mnemonic = "LDRAW" ∨ i.mnemonic = "LOCK" ∨
      i.mnemonic = "UNLOCK" ∨ i.mnemonic = "LSEED" ∨ i.mnemonic = "LLOAD")

/-- R46: no host access changes CALLCNT, but for a soft reset. -/
def Obligations.HostAccessesLeaveCallCount : Prop :=
  ∀ (s t : State) (a : Access) (ts : List Turn), s.turns = .host a :: ts →
    ¬ isResetTurn s.params (.host a) → step s = .next t → t.callcnt = s.callcnt

/-! ## The Z/256 unit -/

/-- R220: NOP completes and changes no data register, no flag but BUSY and DONE, not L, not CALLCNT. -/
def Obligations.NopOnlyCompletes : Prop :=
  ∀ s : State, ∃ t, exec .nop s = .next t ∧ completed t ∧ sameControl s t ∧ sameData s t ∧
    sameGenerator s t ∧ t.ni = s.ni

/-- R122: `inv256`: for odd `a` the unique `x` in 1..255 with `(a * x) mod 256 = 1`, for even `a` 0. -/
def Obligations.ScalarInverseIsUnique : Prop :=
  ∀ a : Byte,
    (a.toNat % 2 = 1 → 1 ≤ (inv256 a).toNat ∧ (inv256 a).toNat ≤ 255 ∧ a.toNat * (inv256 a).toNat % 256 = 1 ∧
      ∀ y, 1 ≤ y → y ≤ 255 → a.toNat * y % 256 = 1 → y = (inv256 a).toNat) ∧
    (a.toNat % 2 = 0 → inv256 a = 0#8)

/-- R123, R34, R52: SINV writes the inverse modulo 256 of the source's low byte, or 0, zero-extended,
and NI; every other register and flag is unchanged. -/
def Obligations.SinvWritesTheInverse : Prop :=
  ∀ (d src : XReg) (s : State), ∃ t, exec (.sinv d src) s = .next t ∧ completed t ∧
    (s.x[src].toNat % 2 = 1 →
      t.ni = false ∧ t.x[d].toNat < 256 ∧ s.x[src].toNat * t.x[d].toNat % 256 = 1) ∧
    (s.x[src].toNat % 2 = 0 → t.ni = true ∧ t.x[d] = 0#32) ∧
    sameXBut d s t ∧ t.w = s.w ∧ sameGenerator s t ∧ sameControl s t

/-- R126: every product of three entries is at most 255^3 in magnitude, three products of the expansion
carry each sign, the determinant lies in the stated range, and its 32-bit two's complement loses nothing. -/
def Obligations.DeterminantFitsThirtyTwoBits : Prop :=
  ∀ M : M3,
    (∀ a b c a' b' c' : Fin 3,
      |entryInt M a a' * entryInt M b b' * entryInt M c c'| ≤ 16581375) ∧
    det3 M =
      (entryInt M 0 0 * entryInt M 1 1 * entryInt M 2 2 + entryInt M 0 1 * entryInt M 1 2 * entryInt M 2 0 +
        entryInt M 0 2 * entryInt M 1 0 * entryInt M 2 1) -
      (entryInt M 0 0 * entryInt M 1 2 * entryInt M 2 1 + entryInt M 0 1 * entryInt M 1 0 * entryInt M 2 2 +
        entryInt M 0 2 * entryInt M 1 1 * entryInt M 2 0) ∧
    -49744125 ≤ det3 M ∧ det3 M ≤ 49744125 ∧ |det3 M| < 2 ^ 26 ∧
    (BitVec.ofInt 32 (det3 M)).toInt = det3 M

/-- R125, R127: DET3 writes the exact integer determinant of the M3 source in two's complement; NI and
everything else is unchanged. -/
def Obligations.Det3WritesTheExactDeterminant : Prop :=
  ∀ (d : XReg) (src : WReg) (s : State), ∃ t, exec (.det3 d src) s = .next t ∧ completed t ∧
    t.x[d].toInt = (ringMatrix s.w[src]).det ∧
    sameXBut d s t ∧ t.w = s.w ∧ sameGenerator s t ∧ t.ni = s.ni ∧ sameControl s t

/-- R128, R129, R34: ADJ3 writes the adjugate modulo 256, bytes 9..15 zero; everything else is unchanged. -/
def Obligations.Adj3WritesTheAdjugate : Prop :=
  ∀ (d src : WReg) (s : State), ∃ t, exec (.adj3 d src) s = .next t ∧ completed t ∧
    (∀ i j : Fin 3, ((byteOf t.w[d] (3 * i.val + j.val)).toNat : ℤ)
      = (ringMatrix s.w[src]).adjugate i j % 256) ∧
    zeroFrom 9 t.w[d] ∧
    sameWBut d s t ∧ t.x = s.x ∧ sameGenerator s t ∧ t.ni = s.ni ∧ sameControl s t

/-- R130, R132, R34: INV3 succeeds exactly when the determinant is odd, and then writes the two-sided
inverse modulo 256 with bytes 9..15 zero and NI = 0; otherwise NI = 1 and no register is written. -/
def Obligations.Inv3WritesTheInverseOrSetsNi : Prop :=
  ∀ (d src : WReg) (s : State), ∃ t, exec (.inv3 d src) s = .next t ∧ completed t ∧
    ((ringMatrix s.w[src]).det % 2 = 1 → t.ni = false ∧
      ringMatrixMod s.w[src] * ringMatrixMod t.w[d] = 1 ∧ ringMatrixMod t.w[d] * ringMatrixMod s.w[src] = 1 ∧
      zeroFrom 9 t.w[d]) ∧
    ((ringMatrix s.w[src]).det % 2 = 0 → t.ni = true ∧ t.w = s.w) ∧
    sameWBut d s t ∧ t.x = s.x ∧ sameGenerator s t ∧ sameControl s t

/-- R131: a successful inverse is two-sided and the only one, and MVM3 with the inverse and then with
the matrix, or in the other order, returns every block. -/
def Obligations.MatrixInverseRoundTrip : Prop :=
  ∀ A B : M3, invertMod A = some B →
    (∀ i j : Fin 3, (∑ k : Fin 3, (A i k).toNat * (B k j).toNat) % 256 = if i = j then 1 else 0) ∧
    (∀ i j : Fin 3, (∑ k : Fin 3, (B i k).toNat * (A k j).toNat) % 256 = if i = j then 1 else 0) ∧
    (∀ C : M3, (∀ i j : Fin 3, (∑ k : Fin 3, (A i k).toNat * (C k j).toNat) % 256 = if i = j then 1 else 0) →
      C = B) ∧
    (∀ C : M3, (∀ i j : Fin 3, (∑ k : Fin 3, (C i k).toNat * (A k j).toNat) % 256 = if i = j then 1 else 0) →
      C = B) ∧
    (∀ (s : State) (d e k k' v : WReg), d ≠ k' →
      (m3Of s.w[k] = B ∧ m3Of s.w[k'] = A ∨ m3Of s.w[k] = A ∧ m3Of s.w[k'] = B) →
      ∃ t u, exec (.mvm3 d k v) s = .next t ∧ exec (.mvm3 e k' d) t = .next u ∧
        v3Of u.w[e] = v3Of s.w[v])

/-- R133: the row-wise dot product, reduced after an exact sum that lies in 0..195,075. -/
def Obligations.MatrixVectorProductFormula : Prop :=
  ∀ (K : M3) (u : V3) (i : Fin 3),
    (matMulVecMod K u i).toNat
      = ((K i 0).toNat * (u 0).toNat + (K i 1).toNat * (u 1).toNat + (K i 2).toNat * (u 2).toNat) % 256 ∧
    (K i 0).toNat * (u 0).toNat + (K i 1).toNat * (u 1).toNat + (K i 2).toNat * (u 2).toNat ≤ 195075

/-- R134, R135, R34: MVM3 writes the product modulo 256 of the M3 key and the V3 block, bytes 3..15
zero; everything else is unchanged. -/
def Obligations.Mvm3WritesTheProduct : Prop :=
  ∀ (d k v : WReg) (s : State), ∃ t, exec (.mvm3 d k v) s = .next t ∧ completed t ∧
    ringVecMod t.w[d] = (ringMatrixMod s.w[k]).mulVec (ringVecMod s.w[v]) ∧ zeroFrom 3 t.w[d] ∧
    sameWBut d s t ∧ t.x = s.x ∧ sameGenerator s t ∧ t.ni = s.ni ∧ sameControl s t

/-! ## The GF(2) unit -/

/-- R150, R151, R34: GMM writes the matrix product over GF(2), bytes 8..15 zero; everything else is unchanged. -/
def Obligations.GmmWritesTheProduct : Prop :=
  ∀ (d a b : WReg) (s : State), ∃ t, exec (.gmm d a b) s = .next t ∧ completed t ∧
    gf2Matrix t.w[d] = gf2Matrix s.w[a] * gf2Matrix s.w[b] ∧ zeroFrom 8 t.w[d] ∧
    sameWBut d s t ∧ t.x = s.x ∧ sameGenerator s t ∧ t.ni = s.ni ∧ sameControl s t

/-- R152, R153, R34: GMV writes the matrix-vector product over GF(2), bytes 1..15 zero; everything else
is unchanged. -/
def Obligations.GmvWritesTheProduct : Prop :=
  ∀ (d a v : WReg) (s : State), ∃ t, exec (.gmv d a v) s = .next t ∧ completed t ∧
    gf2Vec t.w[d] = (gf2Matrix s.w[a]).mulVec (gf2Vec s.w[v]) ∧ zeroFrom 1 t.w[d] ∧
    sameWBut d s t ∧ t.x = s.x ∧ sameGenerator s t ∧ t.ni = s.ni ∧ sameControl s t

/-- R154 to R156, R34: GINV succeeds exactly when the source is invertible over GF(2), and then writes
its two-sided inverse with bytes 8..15 zero and NI = 0; otherwise NI = 1 and no register is written. -/
def Obligations.GinvWritesTheInverseOrSetsNi : Prop :=
  ∀ (d src : WReg) (s : State), ∃ t, exec (.ginv d src) s = .next t ∧ completed t ∧
    ((∃ B, gf2Matrix s.w[src] * B = 1) → t.ni = false ∧
      gf2Matrix s.w[src] * gf2Matrix t.w[d] = 1 ∧ gf2Matrix t.w[d] * gf2Matrix s.w[src] = 1 ∧
      zeroFrom 8 t.w[d]) ∧
    ((¬ ∃ B, gf2Matrix s.w[src] * B = 1) → t.ni = true ∧ t.w = s.w) ∧
    sameWBut d s t ∧ t.x = s.x ∧ sameGenerator s t ∧ sameControl s t

/-- R157, R158: GISINV writes 1 and NI = 0 for an invertible source, 0 and NI = 1 for another, and no
wide register. -/
def Obligations.GisinvTestsInvertibility : Prop :=
  ∀ (d : XReg) (src : WReg) (s : State), ∃ t, exec (.gisinv d src) s = .next t ∧ completed t ∧
    ((∃ B, gf2Matrix s.w[src] * B = 1) → t.x[d] = 1#32 ∧ t.ni = false) ∧
    ((¬ ∃ B, gf2Matrix s.w[src] * B = 1) → t.x[d] = 0#32 ∧ t.ni = true) ∧
    sameXBut d s t ∧ t.w = s.w ∧ sameGenerator s t ∧ sameControl s t

/-- R155: Gauss–Jordan inversion succeeds exactly on full rank, its result is the unique two-sided
inverse, and inverting twice returns the matrix. -/
def Obligations.GaussJordanInvertsExactlyFullRank : Prop :=
  ∀ v : Wide,
    ((invertGf2 (b8Of v)).isSome = true ↔ (gf2Matrix v).rank = 8) ∧
    (∀ B : B8, invertGf2 (b8Of v) = some B →
      gf2Matrix v * gf2Matrix (wideOfB8 B) = 1 ∧ gf2Matrix (wideOfB8 B) * gf2Matrix v = 1 ∧
      (∀ C : Matrix (Fin 8) (Fin 8) (ZMod 2), gf2Matrix v * C = 1 → C = gf2Matrix (wideOfB8 B)) ∧
      invertGf2 B = some (b8Of v))

/-! ## The generator -/

/-- R181, R182: the feedback bit, the byte-by-byte shift step in both chain directions, the same step on
the register as one number, and the rule's example. -/
def Obligations.ShiftStepByBytesAndAsANumber : Prop :=
  ∀ v : Wide,
    newbit v = ((byteOf v 0).getLsbD 0 ^^ (byteOf v 0).getLsbD 1 ^^ (byteOf v 0).getLsbD 2 ^^
      (byteOf v 0).getLsbD 7) ∧
    (∀ i, 1 ≤ i → i ≤ 15 → byteOf (shiftStep .frontToBack v) i =
      (byteOf v i >>> 1) ||| ((BitVec.ofBool ((byteOf v (i - 1)).getLsbD 0)).setWidth 8 <<< 7)) ∧
    byteOf (shiftStep .frontToBack v) 0 = (byteOf v 0 >>> 1) ||| ((BitVec.ofBool (newbit v)).setWidth 8 <<< 7) ∧
    (∀ i, i ≤ 14 → byteOf (shiftStep .backToFront v) i =
      (byteOf v i >>> 1) ||| ((BitVec.ofBool ((byteOf v (i + 1)).getLsbD 0)).setWidth 8 <<< 7)) ∧
    byteOf (shiftStep .backToFront v) 15 = (byteOf v 15 >>> 1) ||| ((BitVec.ofBool (newbit v)).setWidth 8 <<< 7) ∧
    (∑ i ∈ Finset.range 16, (byteOf (shiftStep .frontToBack v) i).toNat * 2 ^ (8 * (15 - i))) =
      (newbit v).toNat * 2 ^ 127 + (∑ i ∈ Finset.range 16, (byteOf v i).toNat * 2 ^ (8 * (15 - i))) / 2 ∧
    (∑ i ∈ Finset.range 16, (byteOf (shiftStep .backToFront v) i).toNat * 2 ^ (8 * i)) =
      (newbit v).toNat * 2 ^ 127 + (∑ i ∈ Finset.range 16, (byteOf v i).toNat * 2 ^ (8 * i)) / 2 ∧
    shiftStep .frontToBack encoderSeed
      = wideOfBytes [0x80#8, 0x80#8, 0, 0, 0, 0, 0, 0, 0, 0, 0, 0, 0, 0, 0, 0x40#8] ∧
    newbit encoderSeed = true

/-- R190, R192: LSEED loads the encoder's seed (byte 0 = 01, byte 15 = 80, the rest 00) and changes
nothing else, CALLCNT included. -/
def Obligations.LseedLoadsTheEncoderSeed : Prop :=
  ∀ s : State, ∃ t, exec .lseed s = .next t ∧ completed t ∧
    (∀ k : Fin 16, byteOf t.l k.val = if k = 0 then 0x01#8 else if k = 15 then 0x80#8 else 0x00#8) ∧
    t.callcnt = s.callcnt ∧ sameData s t ∧ t.ni = s.ni ∧ sameControl s t

/-- R193: LLOAD copies all 16 bytes of the source into L and changes nothing else, CALLCNT included. -/
def Obligations.LloadCopiesAWideRegister : Prop :=
  ∀ (src : WReg) (s : State), ∃ t, exec (.lload src) s = .next t ∧ completed t ∧
    (∀ k, k < 16 → byteOf t.l k = byteOf s.w[src] k) ∧
    t.callcnt = s.callcnt ∧ sameData s t ∧ t.ni = s.ni ∧ sameControl s t

/-- R194: LSTORE copies all 16 bytes of L into the destination and changes nothing else. -/
def Obligations.LstoreCopiesTheGenerator : Prop :=
  ∀ (d : WReg) (s : State), ∃ t, exec (.lstore d) s = .next t ∧ completed t ∧
    (∀ k, k < 16 → byteOf t.w[d] k = byteOf s.l k) ∧
    sameWBut d s t ∧ t.x = s.x ∧ sameGenerator s t ∧ t.ni = s.ni ∧ sameControl s t

/-- R183, R195, R46, R34: LCALL with a count `n` of 1..65535 makes `32 n` shift steps, counts `n` calls
modulo 2^32, writes the last output (byte 0 + 256 × byte 1) zero-extended, and changes nothing else. -/
def Obligations.LcallMakesTheCountedCalls : Prop :=
  ∀ (d : XReg) (n : BitVec 16) (s : State), n ≠ 0#16 → ∃ t, exec (.lcall d n) s = .next t ∧ completed t ∧
    t.l = (shiftStep s.params.chain)^[32 * n.toNat] s.l ∧
    t.callcnt.toNat = (s.callcnt.toNat + n.toNat) % 2 ^ 32 ∧
    t.x[d].toNat = (byteOf t.l 0).toNat + 256 * (byteOf t.l 1).toNat ∧
    sameXBut d s t ∧ t.w = s.w ∧ t.ni = s.ni ∧ sameControl s t

/-- R196: LCALL with count `n` is `n` commands LCALL with count 1, one after another. -/
def Obligations.LcallIsRepeatedSingleCalls : Prop :=
  ∀ (d : XReg) (n : BitVec 16) (s : State), n ≠ 0#16 →
    exec (.lcall d n) s = execTimes (.lcall d 1#16) n.toNat s

/-- R185, R184: if the first 128 calls all give an even byte, every later call does; so the model's
draw, which looks at 128 calls (log 6), ends with the first odd byte exactly when the unbounded draw does. -/
def Obligations.DrawIsDecidedByOneHundredTwentyEightCalls : Prop :=
  ∀ (chain : LfsrChain) (v : Wide),
    ((∀ j, 1 ≤ j → j ≤ 128 → callOdd chain v j = false) → drawNeverEnds chain v) ∧
    (∀ m v' k, drawsTo chain v m v' k → k ≤ 128) ∧
    (∀ m v' k, draw chain v = .drew m v' k ↔ drawsTo chain v m v' k) ∧
    ((∃ v' k, draw chain v = .hang v' k) ↔ drawNeverEnds chain v)

/-- R185: with FRONT_TO_BACK a draw ends within 8 calls when byte 0 of L is not 0 and never when it is;
with either direction a draw from L = 0 never ends. -/
def Obligations.FrontToBackDrawsEndWithinEightCalls : Prop :=
  (∀ v : Wide, byteOf v 0 ≠ 0#8 → ∃ m v' k, drawsTo .frontToBack v m v' k ∧ k ≤ 8) ∧
  (∀ v : Wide, byteOf v 0 = 0#8 → drawNeverEnds .frontToBack v) ∧
  (∀ chain : LfsrChain, drawNeverEnds chain 0#128)

/-- R184, R197, R46: where the draw ends, LDRAW writes its odd mask zero-extended, L is the register
after the draw's calls, CALLCNT counts them, and nothing else changes. -/
def Obligations.LdrawWritesAnOddMask : Prop :=
  ∀ (d : XReg) (s : State) (m : Byte) (v' : Wide) (k : Nat), drawsTo s.params.chain s.l m v' k → k ≤ 128 →
    ∃ t, exec (.ldraw d) s = .next t ∧ completed t ∧
      t.x[d].toNat = m.toNat ∧ m.toNat % 2 = 1 ∧ t.l = v' ∧
      t.callcnt.toNat = (s.callcnt.toNat + k) % 2 ^ 32 ∧
      sameXBut d s t ∧ t.w = s.w ∧ t.ni = s.ni ∧ sameControl s t

/-- R186: where a draw of LDRAW, LOCK or UNLOCK never ends, the command does not complete: the latch
and DONE stay, no destination is written and no error is raised.  That a hang is one engine turn
after another, each a next state, is the model's choice (log 7). -/
def Obligations.EndlessDrawsLeaveTheCommandBusy : Prop :=
  ∀ (i : Instr) (s : State), neverCompletes s.params.chain s.l i →
    ∃ t, exec i s = .next t ∧ t.pend = s.pend ∧ t.done = s.done ∧ sameData s t ∧ t.ni = s.ni ∧ sameControl s t

/-- R186, R40: a hung engine stays hung: every turn that is no reset leaves BUSY = 1, the latch, W and
X as they were and the command still without an end, and sets DONE in no case; the engine's own turn
raises no error.  That a hang is one engine turn after another is the model's choice (log 7). -/
def Obligations.OnlyAResetEndsAHungCommand : Prop :=
  ∀ s : State, hung s →
    (∀ turn ts, s.turns = turn :: ts → inWindow s.params turn ∧ ¬ isResetTurn s.params turn) →
    ∃ t, step s = .next t ∧ hung t ∧ t.pend = s.pend ∧ t.w = s.w ∧ t.x = s.x ∧
      (t.done = true → s.done = true) ∧
      ((∀ a ts, s.turns ≠ .host a :: ts) → t.err = s.err ∧ t.ecode = s.ecode ∧ t.errinfo = s.errinfo)

/-! ## The cipher -/

/-- R211, R212, R34, R46: where the three draws end, LOCK writes the key times the masked block modulo
256, bytes 3..15 zero; L and CALLCNT advance by the draws' calls; nothing else changes. -/
def Obligations.LockWritesTheMaskedProduct : Prop :=
  ∀ (d k b : WReg) (s : State) (m : Fin 3 → Byte) (v' : Wide) (calls : Nat),
    blockDrawsTo s.params.chain s.l m v' calls →
    ∃ t, exec (.lock d k b) s = .next t ∧ completed t ∧
      ringVecMod t.w[d] = (ringMatrixMod s.w[k]).mulVec
        (fun i => ringVecMod s.w[b] i * ((m i).toNat : ZMod 256)) ∧
      zeroFrom 3 t.w[d] ∧ t.l = v' ∧ t.callcnt.toNat = (s.callcnt.toNat + calls) % 2 ^ 32 ∧
      sameWBut d s t ∧ t.x = s.x ∧ t.ni = s.ni ∧ sameControl s t

/-- R213, R214, R34, R46: UNLOCK multiplies the block by the inverse masks and applies the same key;
the rest is as for LOCK. -/
def Obligations.UnlockWritesTheUnmaskedProduct : Prop :=
  ∀ (d k b : WReg) (s : State) (m : Fin 3 → Byte) (v' : Wide) (calls : Nat),
    blockDrawsTo s.params.chain s.l m v' calls →
    ∃ t, exec (.unlock d k b) s = .next t ∧ completed t ∧
      (∃ n : Fin 3 → ZMod 256, (∀ i, n i * ((m i).toNat : ZMod 256) = 1) ∧
        ringVecMod t.w[d] = (ringMatrixMod s.w[k]).mulVec (fun i => ringVecMod s.w[b] i * n i)) ∧
      zeroFrom 3 t.w[d] ∧ t.l = v' ∧ t.callcnt.toNat = (s.callcnt.toNat + calls) % 2 ^ 32 ∧
      sameWBut d s t ∧ t.x = s.x ∧ t.ni = s.ni ∧ sameControl s t

/-- R217: a LOCK and an UNLOCK that start from equal L leave equal L, make the same number of calls
(CALLCNT stays equal), and complete together or hang together, whatever their keys and blocks.  Where
they hang, equal L and CALLCNT after one engine turn are the model's choice (log 7), not R217's. -/
def Obligations.LockAndUnlockStayInLockStep : Prop :=
  ∀ (s s' : State) (d k b d' k' b' : WReg), s'.params.chain = s.params.chain → s'.l = s.l →
    s'.callcnt = s.callcnt → s.pend.isSome = true → s'.pend.isSome = true →
    ∃ t t', exec (.lock d k b) s = .next t ∧ exec (.unlock d' k' b') s' = .next t' ∧
      t'.l = t.l ∧ t'.callcnt = t.callcnt ∧ t'.busy = t.busy

/-- R216: UNLOCK with key K' of LOCK with key K, from the same L, is `K' · D⁻¹ · K · D · v` with `D`
the diagonal of the masks; with both keys the identity it returns the block. -/
def Obligations.UnlockOfLockFormula : Prop :=
  ∀ (s : State) (d k b e k' : WReg) (m : Fin 3 → Byte) (v' : Wide) (calls : Nat), d ≠ k' →
    blockDrawsTo s.params.chain s.l m v' calls →
    ∃ t u, exec (.lock d k b) s = .next t ∧ exec (.unlock e k' d) { t with l := s.l } = .next u ∧
      (∃ D Dinv : Matrix (Fin 3) (Fin 3) (ZMod 256),
        D = Matrix.diagonal (fun i => ((m i).toNat : ZMod 256)) ∧ Dinv * D = 1 ∧
        ringVecMod u.w[e] =
          (ringMatrixMod s.w[k'] * Dinv * ringMatrixMod s.w[k] * D).mulVec (ringVecMod s.w[b])) ∧
      (ringMatrixMod s.w[k] = 1 → ringMatrixMod s.w[k'] = 1 → v3Of u.w[e] = v3Of s.w[b])
end

