-- ==== Sys2Proof/Laws/Bytes.lean ====
section
/-! SUPPORT. Bytes and words of a wide register: what is packed is read back (10_state.md R33, R34; 20_memory.md R72). -/

namespace Sys2Proof.Machine

theorem byteOf_getLsbD (v : Wide) (k i : Nat) :
    (byteOf v k).getLsbD i = (decide (i < 8) && v.getLsbD (8 * k + i)) := by
  simp [byteOf]

/-- Byte `k` of packed bytes is the `k`-th listed byte, and 0 past the list. -/
theorem byteOf_wideOfBytes (bs : List Byte) (k : Nat) (hk : k < 16) :
    byteOf (wideOfBytes bs) k = bs.getD k 0#8 := by
  induction bs generalizing k with
  | nil => simp [wideOfBytes, byteOf]
  | cons b bs ih =>
    apply BitVec.eq_of_getLsbD_eq
    intro i hi
    rw [byteOf_getLsbD]
    cases k with
    | zero =>
      simp [wideOfBytes, hi]
      omega
    | succ k =>
      have hb : b.getLsbD (8 * (k + 1) + i) = false := BitVec.getLsbD_of_ge _ _ (by omega)
      have h := congrArg (fun c : Byte => c.getLsbD i) (ih k (by omega))
      simp only [byteOf_getLsbD, hi, decide_true, Bool.true_and] at h
      simp only [wideOfBytes, BitVec.getLsbD_or, BitVec.getLsbD_shiftLeft, BitVec.getLsbD_setWidth, hb,
        hi, decide_true, Bool.true_and, Bool.and_false, Bool.or_false, List.getD_cons_succ]
      have e : 8 * (k + 1) + i - 8 = 8 * k + i := by omega
      have l : 8 * (k + 1) + i < 128 := by omega
      have n : ¬ 8 * (k + 1) + i < 8 := by omega
      simpa [e, l, n] using h

/-- The word written to a word index is read back there. -/
theorem wordOf_withWord_same (v : Wide) (k : Fin 4) (d : Word) : wordOf (withWord v k d) k = d := by
  apply BitVec.eq_of_getLsbD_eq
  intro i hi
  have h1 : 32 * k.val + i < 128 := by omega
  have h3 : (0xFFFFFFFF#128).getLsbD i = true := by
    have : ∀ j : Fin 32, (0xFFFFFFFF#128).getLsbD j.val = true := by decide
    exact this ⟨i, hi⟩
  simp [wordOf, withWord, hi, h1, h3]

/-- Every other word index reads as before. -/
theorem wordOf_withWord_of_ne (v : Wide) (j k : Fin 4) (d : Word) (h : j ≠ k) :
    wordOf (withWord v k d) j = wordOf v j := by
  apply BitVec.eq_of_getLsbD_eq
  intro i hi
  have hne : j.val ≠ k.val := fun e => h (Fin.ext e)
  have h1 : 32 * j.val + i < 128 := by omega
  have h3 : ∀ n, 32 ≤ n → (0xFFFFFFFF#128).getLsbD n = false := by
    intro n hn
    by_cases hl : n < 128
    · have : ∀ m : Fin 128, 32 ≤ m.val → (0xFFFFFFFF#128).getLsbD m.val = false := by decide
      exact this ⟨n, hl⟩ hn
    · exact BitVec.getLsbD_of_ge _ _ (by omega)
  simp only [wordOf, withWord, BitVec.getLsbD_extractLsb', hi, decide_true, Bool.true_and, BitVec.getLsbD_or,
    BitVec.getLsbD_and, BitVec.getLsbD_not, BitVec.getLsbD_shiftLeft, h1, BitVec.getLsbD_setWidth]
  rcases Nat.lt_or_gt_of_ne hne with hlt | hgt
  · have : 32 * j.val + i < 32 * k.val := by omega
    simp [this]
  · have g : 32 ≤ 32 * j.val + i - 32 * k.val := by omega
    have d0 : d.getLsbD (32 * j.val + i - 32 * k.val) = false := BitVec.getLsbD_of_ge _ _ g
    simp [h3 _ g, d0]

end Sys2Proof.Machine
end

