-- ==== Sys2Proof/Laws/Draws.lean ====
section
/-! SUPPORT. What generator calls and mask draws can do (42_lfsr.md R183, R184). -/

namespace Sys2Proof.Machine

theorem callsL_add (chain : LfsrChain) (j k : Nat) (v : Wide) :
    callsL chain (j + k) v = callsL chain k (callsL chain j v) := by
  induction j generalizing v with
  | zero => simp [callsL]
  | succ j ih => rw [Nat.succ_add]; exact ih (callL chain v)

theorem callOdd_add (chain : LfsrChain) (j k : Nat) (v : Wide) :
    callOdd chain v (j + k) = callOdd chain (callsL chain j v) k := by
  simp [callOdd, callsL_add]

/-- The mask a call yields is odd exactly when the call's test bit is 1. -/
theorem mask_odd (chain : LfsrChain) (v : Wide) :
    ((callOutput (callL chain v)).setWidth 8).getLsbD 0 = callOdd chain v 1 := by
  simp [callOdd, callsL]

/-- A loop that ends has found the first odd call, within its fuel. -/
theorem drawLoop_drew {chain : LfsrChain} {fuel : Nat} {v : Wide} {n : Nat} {m : Byte} {v' : Wide} {n' : Nat}
    (h : drawLoop chain fuel v n = .drew m v' n') :
    ∃ k, k ≤ fuel ∧ n' = n + k ∧ drawsTo chain v m v' k := by
  induction fuel generalizing v n with
  | zero => simp [drawLoop] at h
  | succ fuel ih =>
    rw [drawLoop] at h
    simp only [mask_odd] at h
    split at h
    · rename_i hodd
      cases h
      exact ⟨1, by omega, rfl, le_rfl, fun j h1 h2 => absurd h1 (by omega), hodd, rfl, rfl⟩
    · rename_i heven
      obtain ⟨k, hk, hn, h1, hlt, hodd, hv, hm⟩ := ih h
      refine ⟨1 + k, by omega, by omega, by omega, fun j hj1 hj2 => ?_, ?_, ?_, hm⟩
      · by_cases hj : j = 1
        · subst hj; simpa using heven
        · obtain ⟨j', rfl⟩ : ∃ j', j = 1 + j' := ⟨j - 1, by omega⟩
          rw [callOdd_add]
          exact hlt j' (by omega) (by omega)
      · rw [callOdd_add]; exact hodd
      · rw [callsL_add]; exact hv

/-- A loop that runs out of fuel has seen only even calls. -/
theorem drawLoop_hang {chain : LfsrChain} {fuel : Nat} {v : Wide} {n : Nat} {v' : Wide} {n' : Nat}
    (h : drawLoop chain fuel v n = .hang v' n') :
    n' = n + fuel ∧ v' = callsL chain fuel v ∧ ∀ j, 1 ≤ j → j ≤ fuel → callOdd chain v j = false := by
  induction fuel generalizing v n with
  | zero =>
    cases h
    exact ⟨rfl, rfl, fun j h1 h2 => absurd h1 (by omega)⟩
  | succ fuel ih =>
    rw [drawLoop] at h
    simp only [mask_odd] at h
    split at h
    · cases h
    · rename_i heven
      obtain ⟨hn, hv, hall⟩ := ih h
      refine ⟨by omega, hv, fun j h1 h2 => ?_⟩
      by_cases hj : j = 1
      · subst hj; simpa using heven
      · obtain ⟨j', rfl⟩ : ∃ j', j = 1 + j' := ⟨j - 1, by omega⟩
        rw [callOdd_add]
        exact hall j' (by omega) (by omega)

/-- The first odd call from a register is unique. -/
theorem drawsTo_unique {chain : LfsrChain} {v : Wide} {m m' : Byte} {u u' : Wide} {k k' : Nat}
    (h : drawsTo chain v m u k) (h' : drawsTo chain v m' u' k') : k = k' ∧ u = u' ∧ m = m' := by
  obtain ⟨h1, hlt, hodd, rfl, rfl⟩ := h
  obtain ⟨h1', hlt', hodd', rfl, rfl⟩ := h'
  have hk : k = k' := by
    rcases Nat.lt_trichotomy k k' with h | h | h
    · rw [hlt' k h1 h] at hodd; cases hodd
    · exact h
    · rw [hlt k' h1' h] at hodd'; cases hodd'
  subst hk
  exact ⟨rfl, rfl, rfl⟩

/-- A draw that ends within 128 calls is the model's draw. -/
theorem draw_of_drawsTo {chain : LfsrChain} {v : Wide} {m : Byte} {u : Wide} {k : Nat}
    (h : drawsTo chain v m u k) (hk : k ≤ 128) : draw chain v = .drew m u k := by
  cases hd : draw chain v with
  | drew m' u' n =>
    obtain ⟨k', -, hn, h'⟩ := drawLoop_drew hd
    obtain ⟨rfl, rfl, rfl⟩ := drawsTo_unique h h'
    simp [hn]
  | hang u' n =>
    obtain ⟨-, -, hall⟩ := drawLoop_hang hd
    have := h.2.2.1
    rw [hall k h.1 hk] at this
    cases this

/-- Three draws that end are the model's three draws. -/
theorem drawMasks_of_blockDrawsTo {chain : LfsrChain} {v : Wide} {m : Fin 3 → Byte} {u : Wide} {n : Nat}
    (h : blockDrawsTo chain v m u n) : drawMasks chain v = .drew ⟨m 0, m 1, m 2⟩ u n := by
  obtain ⟨v1, v2, k1, k2, k3, h1, h2, h3, b1, b2, b3, rfl⟩ := h
  simp [drawMasks, draw_of_drawsTo h1 b1, draw_of_drawsTo h2 b2, draw_of_drawsTo h3 b3]

end Sys2Proof.Machine
end

