-- ==== Sys2Proof/Laws/Encoding.lean ====
section
/-! SUPPORT. The fields of a command word (30_encoding.md R102). -/

namespace Sys2Proof

/-- Every bit of a command word, by the field it lies in (R102). -/
theorem commandWord_getLsbD (opc : BitVec 6) (rd rs1 rs2 : Fin 8) (imm : BitVec 16) (i : Nat) :
    (commandWord opc rd rs1 rs2 imm).getLsbD i =
      if i < 16 then imm.getLsbD i
      else if i < 17 then false
      else if i < 20 then (BitVec.ofFin (w := 3) rs2).getLsbD (i - 17)
      else if i < 23 then (BitVec.ofFin (w := 3) rs1).getLsbD (i - 20)
      else if i < 26 then (BitVec.ofFin (w := 3) rd).getLsbD (i - 23)
      else opc.getLsbD (i - 26) := by
  unfold commandWord
  rw [BitVec.getLsbD_append, BitVec.getLsbD_append, BitVec.getLsbD_append, BitVec.getLsbD_append,
    BitVec.getLsbD_append]
  split_ifs <;> first
    | omega
    | rfl
    | apply BitVec.getLsbD_zero

theorem fieldOpc_commandWord (opc : BitVec 6) (rd rs1 rs2 : Fin 8) (imm : BitVec 16) :
    fieldOpc (commandWord opc rd rs1 rs2 imm) = opc := by
  apply BitVec.eq_of_getLsbD_eq
  intro i hi
  rw [fieldOpc, BitVec.getLsbD_extractLsb', commandWord_getLsbD]
  interval_cases i <;> simp

theorem fieldImm_commandWord (opc : BitVec 6) (rd rs1 rs2 : Fin 8) (imm : BitVec 16) :
    fieldImm (commandWord opc rd rs1 rs2 imm) = imm := by
  apply BitVec.eq_of_getLsbD_eq
  intro i hi
  rw [fieldImm, BitVec.getLsbD_extractLsb', commandWord_getLsbD]
  simp [hi]

theorem fieldRd_commandWord (opc : BitVec 6) (rd rs1 rs2 : Fin 8) (imm : BitVec 16) :
    fieldRd (commandWord opc rd rs1 rs2 imm) = rd := by
  have : (commandWord opc rd rs1 rs2 imm).extractLsb' 23 3 = BitVec.ofFin (w := 3) rd := by
    apply BitVec.eq_of_getLsbD_eq
    intro i hi
    rw [BitVec.getLsbD_extractLsb', commandWord_getLsbD]
    interval_cases i <;> simp
  rw [fieldRd, this]

theorem fieldRs1_commandWord (opc : BitVec 6) (rd rs1 rs2 : Fin 8) (imm : BitVec 16) :
    fieldRs1 (commandWord opc rd rs1 rs2 imm) = rs1 := by
  have : (commandWord opc rd rs1 rs2 imm).extractLsb' 20 3 = BitVec.ofFin (w := 3) rs1 := by
    apply BitVec.eq_of_getLsbD_eq
    intro i hi
    rw [BitVec.getLsbD_extractLsb', commandWord_getLsbD]
    interval_cases i <;> simp
  rw [fieldRs1, this]

theorem fieldRs2_commandWord (opc : BitVec 6) (rd rs1 rs2 : Fin 8) (imm : BitVec 16) :
    fieldRs2 (commandWord opc rd rs1 rs2 imm) = rs2 := by
  have : (commandWord opc rd rs1 rs2 imm).extractLsb' 17 3 = BitVec.ofFin (w := 3) rs2 := by
    apply BitVec.eq_of_getLsbD_eq
    intro i hi
    rw [BitVec.getLsbD_extractLsb', commandWord_getLsbD]
    interval_cases i <;> simp
  rw [fieldRs2, this]

/-- Masking a command word with OPC, RS2, Z and IMM16 keeps those fields and clears the others. -/
theorem commandWord_maskTwo (opc : BitVec 6) (rd rs1 rs2 : Fin 8) (imm : BitVec 16) :
    commandWord opc rd rs1 rs2 imm &&& 0xFC0FFFFF#32 = commandWord opc 0 0 rs2 imm := by
  apply BitVec.eq_of_getLsbD_eq
  intro i hi
  rw [BitVec.getLsbD_and, commandWord_getLsbD, commandWord_getLsbD]
  interval_cases i <;> simp

/-- Masking a command word with OPC, Z and IMM16 keeps those fields and clears the others. -/
theorem commandWord_maskThree (opc : BitVec 6) (rd rs1 rs2 : Fin 8) (imm : BitVec 16) :
    commandWord opc rd rs1 rs2 imm &&& 0xFC01FFFF#32 = commandWord opc 0 0 0 imm := by
  apply BitVec.eq_of_getLsbD_eq
  intro i hi
  rw [BitVec.getLsbD_and, commandWord_getLsbD, commandWord_getLsbD]
  interval_cases i <;> simp

/-- Masking a command word with every field but RS1 keeps those fields and clears the others. -/
theorem commandWord_maskRs1Only (opc : BitVec 6) (rd rs1 rs2 : Fin 8) (imm : BitVec 16) :
    commandWord opc rd rs1 rs2 imm &&& 0xFF8FFFFF#32 = commandWord opc rd 0 rs2 imm := by
  apply BitVec.eq_of_getLsbD_eq
  intro i hi
  rw [BitVec.getLsbD_and, commandWord_getLsbD, commandWord_getLsbD]
  interval_cases i <;> simp

/-- Masking a command word with every field but RD keeps those fields and clears the others. -/
theorem commandWord_maskRdOnly (opc : BitVec 6) (rd rs1 rs2 : Fin 8) (imm : BitVec 16) :
    commandWord opc rd rs1 rs2 imm &&& 0xFC7FFFFF#32 = commandWord opc 0 rs1 rs2 imm := by
  apply BitVec.eq_of_getLsbD_eq
  intro i hi
  rw [BitVec.getLsbD_and, commandWord_getLsbD, commandWord_getLsbD]
  interval_cases i <;> simp

/-- Masking a command word with OPC, RS1, RS2 and Z keeps those fields and clears the others. -/
theorem commandWord_maskLcall (opc : BitVec 6) (rd rs1 rs2 : Fin 8) (imm : BitVec 16) :
    commandWord opc rd rs1 rs2 imm &&& 0xFC7F0000#32 = commandWord opc 0 rs1 rs2 0#16 := by
  apply BitVec.eq_of_getLsbD_eq
  intro i hi
  rw [BitVec.getLsbD_and, commandWord_getLsbD, commandWord_getLsbD]
  interval_cases i <;> simp

end Sys2Proof
end

