-- ==== Sys2Proof/Laws/State.lean ====
section
/-! SUPPORT. One lemma per field of State per update of it, each true by unfolding once. -/

namespace Sys2Proof.Machine

@[simp] theorem writeW_params (i : WReg) (v : Wide) (s : State) : (writeW i v s).params = s.params := rfl
@[simp] theorem writeW_w (i : WReg) (v : Wide) (s : State) : (writeW i v s).w = s.w.set i v := rfl
@[simp] theorem writeW_x (i : WReg) (v : Wide) (s : State) : (writeW i v s).x = s.x := rfl
@[simp] theorem writeW_l (i : WReg) (v : Wide) (s : State) : (writeW i v s).l = s.l := rfl
@[simp] theorem writeW_ie (i : WReg) (v : Wide) (s : State) : (writeW i v s).ie = s.ie := rfl
@[simp] theorem writeW_done (i : WReg) (v : Wide) (s : State) : (writeW i v s).done = s.done := rfl
@[simp] theorem writeW_ni (i : WReg) (v : Wide) (s : State) : (writeW i v s).ni = s.ni := rfl
@[simp] theorem writeW_err (i : WReg) (v : Wide) (s : State) : (writeW i v s).err = s.err := rfl
@[simp] theorem writeW_ecode (i : WReg) (v : Wide) (s : State) : (writeW i v s).ecode = s.ecode := rfl
@[simp] theorem writeW_cmd (i : WReg) (v : Wide) (s : State) : (writeW i v s).cmd = s.cmd := rfl
@[simp] theorem writeW_callcnt (i : WReg) (v : Wide) (s : State) : (writeW i v s).callcnt = s.callcnt := rfl
@[simp] theorem writeW_errinfo (i : WReg) (v : Wide) (s : State) : (writeW i v s).errinfo = s.errinfo := rfl
@[simp] theorem writeW_pend (i : WReg) (v : Wide) (s : State) : (writeW i v s).pend = s.pend := rfl
@[simp] theorem writeW_turns (i : WReg) (v : Wide) (s : State) : (writeW i v s).turns = s.turns := rfl
@[simp] theorem writeW_reply (i : WReg) (v : Wide) (s : State) : (writeW i v s).reply = s.reply := rfl
@[simp] theorem writeW_freeCount (i : WReg) (v : Wide) (s : State) : (writeW i v s).freeCount = s.freeCount := rfl

@[simp] theorem writeX_params (i : XReg) (v : Word) (s : State) : (writeX i v s).params = s.params := rfl
@[simp] theorem writeX_w (i : XReg) (v : Word) (s : State) : (writeX i v s).w = s.w := rfl
@[simp] theorem writeX_x (i : XReg) (v : Word) (s : State) : (writeX i v s).x = s.x.set i v := rfl
@[simp] theorem writeX_l (i : XReg) (v : Word) (s : State) : (writeX i v s).l = s.l := rfl
@[simp] theorem writeX_ie (i : XReg) (v : Word) (s : State) : (writeX i v s).ie = s.ie := rfl
@[simp] theorem writeX_done (i : XReg) (v : Word) (s : State) : (writeX i v s).done = s.done := rfl
@[simp] theorem writeX_ni (i : XReg) (v : Word) (s : State) : (writeX i v s).ni = s.ni := rfl
@[simp] theorem writeX_err (i : XReg) (v : Word) (s : State) : (writeX i v s).err = s.err := rfl
@[simp] theorem writeX_ecode (i : XReg) (v : Word) (s : State) : (writeX i v s).ecode = s.ecode := rfl
@[simp] theorem writeX_cmd (i : XReg) (v : Word) (s : State) : (writeX i v s).cmd = s.cmd := rfl
@[simp] theorem writeX_callcnt (i : XReg) (v : Word) (s : State) : (writeX i v s).callcnt = s.callcnt := rfl
@[simp] theorem writeX_errinfo (i : XReg) (v : Word) (s : State) : (writeX i v s).errinfo = s.errinfo := rfl
@[simp] theorem writeX_pend (i : XReg) (v : Word) (s : State) : (writeX i v s).pend = s.pend := rfl
@[simp] theorem writeX_turns (i : XReg) (v : Word) (s : State) : (writeX i v s).turns = s.turns := rfl
@[simp] theorem writeX_reply (i : XReg) (v : Word) (s : State) : (writeX i v s).reply = s.reply := rfl
@[simp] theorem writeX_freeCount (i : XReg) (v : Word) (s : State) : (writeX i v s).freeCount = s.freeCount := rfl

@[simp] theorem setL_params (v : Wide) (s : State) : (setL v s).params = s.params := rfl
@[simp] theorem setL_w (v : Wide) (s : State) : (setL v s).w = s.w := rfl
@[simp] theorem setL_x (v : Wide) (s : State) : (setL v s).x = s.x := rfl
@[simp] theorem setL_l (v : Wide) (s : State) : (setL v s).l = v := rfl
@[simp] theorem setL_ie (v : Wide) (s : State) : (setL v s).ie = s.ie := rfl
@[simp] theorem setL_done (v : Wide) (s : State) : (setL v s).done = s.done := rfl
@[simp] theorem setL_ni (v : Wide) (s : State) : (setL v s).ni = s.ni := rfl
@[simp] theorem setL_err (v : Wide) (s : State) : (setL v s).err = s.err := rfl
@[simp] theorem setL_ecode (v : Wide) (s : State) : (setL v s).ecode = s.ecode := rfl
@[simp] theorem setL_cmd (v : Wide) (s : State) : (setL v s).cmd = s.cmd := rfl
@[simp] theorem setL_callcnt (v : Wide) (s : State) : (setL v s).callcnt = s.callcnt := rfl
@[simp] theorem setL_errinfo (v : Wide) (s : State) : (setL v s).errinfo = s.errinfo := rfl
@[simp] theorem setL_pend (v : Wide) (s : State) : (setL v s).pend = s.pend := rfl
@[simp] theorem setL_turns (v : Wide) (s : State) : (setL v s).turns = s.turns := rfl
@[simp] theorem setL_reply (v : Wide) (s : State) : (setL v s).reply = s.reply := rfl
@[simp] theorem setL_freeCount (v : Wide) (s : State) : (setL v s).freeCount = s.freeCount := rfl

@[simp] theorem advanceL_params (v : Wide) (n : Nat) (s : State) : (advanceL v n s).params = s.params := rfl
@[simp] theorem advanceL_w (v : Wide) (n : Nat) (s : State) : (advanceL v n s).w = s.w := rfl
@[simp] theorem advanceL_x (v : Wide) (n : Nat) (s : State) : (advanceL v n s).x = s.x := rfl
@[simp] theorem advanceL_l (v : Wide) (n : Nat) (s : State) : (advanceL v n s).l = v := rfl
@[simp] theorem advanceL_ie (v : Wide) (n : Nat) (s : State) : (advanceL v n s).ie = s.ie := rfl
@[simp] theorem advanceL_done (v : Wide) (n : Nat) (s : State) : (advanceL v n s).done = s.done := rfl
@[simp] theorem advanceL_ni (v : Wide) (n : Nat) (s : State) : (advanceL v n s).ni = s.ni := rfl
@[simp] theorem advanceL_err (v : Wide) (n : Nat) (s : State) : (advanceL v n s).err = s.err := rfl
@[simp] theorem advanceL_ecode (v : Wide) (n : Nat) (s : State) : (advanceL v n s).ecode = s.ecode := rfl
@[simp] theorem advanceL_cmd (v : Wide) (n : Nat) (s : State) : (advanceL v n s).cmd = s.cmd := rfl
@[simp] theorem advanceL_callcnt (v : Wide) (n : Nat) (s : State) : (advanceL v n s).callcnt = s.callcnt + BitVec.ofNat 32 n := rfl
@[simp] theorem advanceL_errinfo (v : Wide) (n : Nat) (s : State) : (advanceL v n s).errinfo = s.errinfo := rfl
@[simp] theorem advanceL_pend (v : Wide) (n : Nat) (s : State) : (advanceL v n s).pend = s.pend := rfl
@[simp] theorem advanceL_turns (v : Wide) (n : Nat) (s : State) : (advanceL v n s).turns = s.turns := rfl
@[simp] theorem advanceL_reply (v : Wide) (n : Nat) (s : State) : (advanceL v n s).reply = s.reply := rfl
@[simp] theorem advanceL_freeCount (v : Wide) (n : Nat) (s : State) : (advanceL v n s).freeCount = s.freeCount := rfl

@[simp] theorem complete_params (s : State) : (complete s).params = s.params := rfl
@[simp] theorem complete_w (s : State) : (complete s).w = s.w := rfl
@[simp] theorem complete_x (s : State) : (complete s).x = s.x := rfl
@[simp] theorem complete_l (s : State) : (complete s).l = s.l := rfl
@[simp] theorem complete_ie (s : State) : (complete s).ie = s.ie := rfl
@[simp] theorem complete_done (s : State) : (complete s).done = true := rfl
@[simp] theorem complete_ni (s : State) : (complete s).ni = s.ni := rfl
@[simp] theorem complete_err (s : State) : (complete s).err = s.err := rfl
@[simp] theorem complete_ecode (s : State) : (complete s).ecode = s.ecode := rfl
@[simp] theorem complete_cmd (s : State) : (complete s).cmd = s.cmd := rfl
@[simp] theorem complete_callcnt (s : State) : (complete s).callcnt = s.callcnt := rfl
@[simp] theorem complete_errinfo (s : State) : (complete s).errinfo = s.errinfo := rfl
@[simp] theorem complete_pend (s : State) : (complete s).pend = none := rfl
@[simp] theorem complete_turns (s : State) : (complete s).turns = s.turns := rfl
@[simp] theorem complete_reply (s : State) : (complete s).reply = s.reply := rfl
@[simp] theorem complete_freeCount (s : State) : (complete s).freeCount = s.freeCount := rfl

@[simp] theorem setNi_params (b : Bool) (s : State) : (setNi b s).params = s.params := rfl
@[simp] theorem setNi_w (b : Bool) (s : State) : (setNi b s).w = s.w := rfl
@[simp] theorem setNi_x (b : Bool) (s : State) : (setNi b s).x = s.x := rfl
@[simp] theorem setNi_l (b : Bool) (s : State) : (setNi b s).l = s.l := rfl
@[simp] theorem setNi_ie (b : Bool) (s : State) : (setNi b s).ie = s.ie := rfl
@[simp] theorem setNi_done (b : Bool) (s : State) : (setNi b s).done = s.done := rfl
@[simp] theorem setNi_ni (b : Bool) (s : State) : (setNi b s).ni = b := rfl
@[simp] theorem setNi_err (b : Bool) (s : State) : (setNi b s).err = s.err := rfl
@[simp] theorem setNi_ecode (b : Bool) (s : State) : (setNi b s).ecode = s.ecode := rfl
@[simp] theorem setNi_cmd (b : Bool) (s : State) : (setNi b s).cmd = s.cmd := rfl
@[simp] theorem setNi_callcnt (b : Bool) (s : State) : (setNi b s).callcnt = s.callcnt := rfl
@[simp] theorem setNi_errinfo (b : Bool) (s : State) : (setNi b s).errinfo = s.errinfo := rfl
@[simp] theorem setNi_pend (b : Bool) (s : State) : (setNi b s).pend = s.pend := rfl
@[simp] theorem setNi_turns (b : Bool) (s : State) : (setNi b s).turns = s.turns := rfl
@[simp] theorem setNi_reply (b : Bool) (s : State) : (setNi b s).reply = s.reply := rfl
@[simp] theorem setNi_freeCount (b : Bool) (s : State) : (setNi b s).freeCount = s.freeCount := rfl

@[simp] theorem acceptCommand_params (c : Word) (s : State) : (acceptCommand c s).params = s.params := rfl
@[simp] theorem acceptCommand_w (c : Word) (s : State) : (acceptCommand c s).w = s.w := rfl
@[simp] theorem acceptCommand_x (c : Word) (s : State) : (acceptCommand c s).x = s.x := rfl
@[simp] theorem acceptCommand_l (c : Word) (s : State) : (acceptCommand c s).l = s.l := rfl
@[simp] theorem acceptCommand_ie (c : Word) (s : State) : (acceptCommand c s).ie = s.ie := rfl
@[simp] theorem acceptCommand_done (c : Word) (s : State) : (acceptCommand c s).done = false := rfl
@[simp] theorem acceptCommand_ni (c : Word) (s : State) : (acceptCommand c s).ni = s.ni := rfl
@[simp] theorem acceptCommand_err (c : Word) (s : State) : (acceptCommand c s).err = s.err := rfl
@[simp] theorem acceptCommand_ecode (c : Word) (s : State) : (acceptCommand c s).ecode = s.ecode := rfl
@[simp] theorem acceptCommand_cmd (c : Word) (s : State) : (acceptCommand c s).cmd = c := rfl
@[simp] theorem acceptCommand_callcnt (c : Word) (s : State) : (acceptCommand c s).callcnt = s.callcnt := rfl
@[simp] theorem acceptCommand_errinfo (c : Word) (s : State) : (acceptCommand c s).errinfo = s.errinfo := rfl
@[simp] theorem acceptCommand_pend (c : Word) (s : State) : (acceptCommand c s).pend = some c := rfl
@[simp] theorem acceptCommand_turns (c : Word) (s : State) : (acceptCommand c s).turns = s.turns := rfl
@[simp] theorem acceptCommand_reply (c : Word) (s : State) : (acceptCommand c s).reply = s.reply := rfl
@[simp] theorem acceptCommand_freeCount (c : Word) (s : State) : (acceptCommand c s).freeCount = s.freeCount := rfl

@[simp] theorem setTurns_params (ts : List Turn) (s : State) : (setTurns ts s).params = s.params := rfl
@[simp] theorem setTurns_w (ts : List Turn) (s : State) : (setTurns ts s).w = s.w := rfl
@[simp] theorem setTurns_x (ts : List Turn) (s : State) : (setTurns ts s).x = s.x := rfl
@[simp] theorem setTurns_l (ts : List Turn) (s : State) : (setTurns ts s).l = s.l := rfl
@[simp] theorem setTurns_ie (ts : List Turn) (s : State) : (setTurns ts s).ie = s.ie := rfl
@[simp] theorem setTurns_done (ts : List Turn) (s : State) : (setTurns ts s).done = s.done := rfl
@[simp] theorem setTurns_ni (ts : List Turn) (s : State) : (setTurns ts s).ni = s.ni := rfl
@[simp] theorem setTurns_err (ts : List Turn) (s : State) : (setTurns ts s).err = s.err := rfl
@[simp] theorem setTurns_ecode (ts : List Turn) (s : State) : (setTurns ts s).ecode = s.ecode := rfl
@[simp] theorem setTurns_cmd (ts : List Turn) (s : State) : (setTurns ts s).cmd = s.cmd := rfl
@[simp] theorem setTurns_callcnt (ts : List Turn) (s : State) : (setTurns ts s).callcnt = s.callcnt := rfl
@[simp] theorem setTurns_errinfo (ts : List Turn) (s : State) : (setTurns ts s).errinfo = s.errinfo := rfl
@[simp] theorem setTurns_pend (ts : List Turn) (s : State) : (setTurns ts s).pend = s.pend := rfl
@[simp] theorem setTurns_turns (ts : List Turn) (s : State) : (setTurns ts s).turns = ts := rfl
@[simp] theorem setTurns_reply (ts : List Turn) (s : State) : (setTurns ts s).reply = s.reply := rfl
@[simp] theorem setTurns_freeCount (ts : List Turn) (s : State) : (setTurns ts s).freeCount = s.freeCount := rfl

@[simp] theorem answer_params (v : Option Word) (s : State) : (answer v s).params = s.params := rfl
@[simp] theorem answer_w (v : Option Word) (s : State) : (answer v s).w = s.w := rfl
@[simp] theorem answer_x (v : Option Word) (s : State) : (answer v s).x = s.x := rfl
@[simp] theorem answer_l (v : Option Word) (s : State) : (answer v s).l = s.l := rfl
@[simp] theorem answer_ie (v : Option Word) (s : State) : (answer v s).ie = s.ie := rfl
@[simp] theorem answer_done (v : Option Word) (s : State) : (answer v s).done = s.done := rfl
@[simp] theorem answer_ni (v : Option Word) (s : State) : (answer v s).ni = s.ni := rfl
@[simp] theorem answer_err (v : Option Word) (s : State) : (answer v s).err = s.err := rfl
@[simp] theorem answer_ecode (v : Option Word) (s : State) : (answer v s).ecode = s.ecode := rfl
@[simp] theorem answer_cmd (v : Option Word) (s : State) : (answer v s).cmd = s.cmd := rfl
@[simp] theorem answer_callcnt (v : Option Word) (s : State) : (answer v s).callcnt = s.callcnt := rfl
@[simp] theorem answer_errinfo (v : Option Word) (s : State) : (answer v s).errinfo = s.errinfo := rfl
@[simp] theorem answer_pend (v : Option Word) (s : State) : (answer v s).pend = s.pend := rfl
@[simp] theorem answer_turns (v : Option Word) (s : State) : (answer v s).turns = s.turns := rfl
@[simp] theorem answer_reply (v : Option Word) (s : State) : (answer v s).reply = v := rfl
@[simp] theorem answer_freeCount (v : Option Word) (s : State) : (answer v s).freeCount = s.freeCount := rfl

@[simp] theorem answerFree_params (s : State) : (answerFree s).params = s.params := rfl
@[simp] theorem answerFree_w (s : State) : (answerFree s).w = s.w := rfl
@[simp] theorem answerFree_x (s : State) : (answerFree s).x = s.x := rfl
@[simp] theorem answerFree_l (s : State) : (answerFree s).l = s.l := rfl
@[simp] theorem answerFree_ie (s : State) : (answerFree s).ie = s.ie := rfl
@[simp] theorem answerFree_done (s : State) : (answerFree s).done = s.done := rfl
@[simp] theorem answerFree_ni (s : State) : (answerFree s).ni = s.ni := rfl
@[simp] theorem answerFree_err (s : State) : (answerFree s).err = s.err := rfl
@[simp] theorem answerFree_ecode (s : State) : (answerFree s).ecode = s.ecode := rfl
@[simp] theorem answerFree_cmd (s : State) : (answerFree s).cmd = s.cmd := rfl
@[simp] theorem answerFree_callcnt (s : State) : (answerFree s).callcnt = s.callcnt := rfl
@[simp] theorem answerFree_errinfo (s : State) : (answerFree s).errinfo = s.errinfo := rfl
@[simp] theorem answerFree_pend (s : State) : (answerFree s).pend = s.pend := rfl
@[simp] theorem answerFree_turns (s : State) : (answerFree s).turns = s.turns := rfl
@[simp] theorem answerFree_reply (s : State) : (answerFree s).reply = some (Config.busyRead s.freeCount) := rfl
@[simp] theorem answerFree_freeCount (s : State) : (answerFree s).freeCount = s.freeCount + 1 := rfl

@[simp] theorem recordError_params (e : ECode) (info : Word) (s : State) : (recordError e info s).params = s.params := by
  unfold recordError; split <;> rfl
@[simp] theorem recordError_w (e : ECode) (info : Word) (s : State) : (recordError e info s).w = s.w := by
  unfold recordError; split <;> rfl
@[simp] theorem recordError_x (e : ECode) (info : Word) (s : State) : (recordError e info s).x = s.x := by
  unfold recordError; split <;> rfl
@[simp] theorem recordError_l (e : ECode) (info : Word) (s : State) : (recordError e info s).l = s.l := by
  unfold recordError; split <;> rfl
@[simp] theorem recordError_ie (e : ECode) (info : Word) (s : State) : (recordError e info s).ie = s.ie := by
  unfold recordError; split <;> rfl
@[simp] theorem recordError_done (e : ECode) (info : Word) (s : State) : (recordError e info s).done = s.done := by
  unfold recordError; split <;> rfl
@[simp] theorem recordError_ni (e : ECode) (info : Word) (s : State) : (recordError e info s).ni = s.ni := by
  unfold recordError; split <;> rfl
@[simp] theorem recordError_cmd (e : ECode) (info : Word) (s : State) : (recordError e info s).cmd = s.cmd := by
  unfold recordError; split <;> rfl
@[simp] theorem recordError_callcnt (e : ECode) (info : Word) (s : State) : (recordError e info s).callcnt = s.callcnt := by
  unfold recordError; split <;> rfl
@[simp] theorem recordError_pend (e : ECode) (info : Word) (s : State) : (recordError e info s).pend = s.pend := by
  unfold recordError; split <;> rfl
@[simp] theorem recordError_turns (e : ECode) (info : Word) (s : State) : (recordError e info s).turns = s.turns := by
  unfold recordError; split <;> rfl
@[simp] theorem recordError_reply (e : ECode) (info : Word) (s : State) : (recordError e info s).reply = s.reply := by
  unfold recordError; split <;> rfl
@[simp] theorem recordError_freeCount (e : ECode) (info : Word) (s : State) : (recordError e info s).freeCount = s.freeCount := by
  unfold recordError; split <;> rfl

@[simp] theorem clearDone_params (v : Word) (s : State) : (clearDone v s).params = s.params := by
  unfold clearDone; split <;> rfl
@[simp] theorem clearDone_w (v : Word) (s : State) : (clearDone v s).w = s.w := by
  unfold clearDone; split <;> rfl
@[simp] theorem clearDone_x (v : Word) (s : State) : (clearDone v s).x = s.x := by
  unfold clearDone; split <;> rfl
@[simp] theorem clearDone_l (v : Word) (s : State) : (clearDone v s).l = s.l := by
  unfold clearDone; split <;> rfl
@[simp] theorem clearDone_ie (v : Word) (s : State) : (clearDone v s).ie = s.ie := by
  unfold clearDone; split <;> rfl
@[simp] theorem clearDone_ni (v : Word) (s : State) : (clearDone v s).ni = s.ni := by
  unfold clearDone; split <;> rfl
@[simp] theorem clearDone_err (v : Word) (s : State) : (clearDone v s).err = s.err := by
  unfold clearDone; split <;> rfl
@[simp] theorem clearDone_ecode (v : Word) (s : State) : (clearDone v s).ecode = s.ecode := by
  unfold clearDone; split <;> rfl
@[simp] theorem clearDone_cmd (v : Word) (s : State) : (clearDone v s).cmd = s.cmd := by
  unfold clearDone; split <;> rfl
@[simp] theorem clearDone_callcnt (v : Word) (s : State) : (clearDone v s).callcnt = s.callcnt := by
  unfold clearDone; split <;> rfl
@[simp] theorem clearDone_errinfo (v : Word) (s : State) : (clearDone v s).errinfo = s.errinfo := by
  unfold clearDone; split <;> rfl
@[simp] theorem clearDone_pend (v : Word) (s : State) : (clearDone v s).pend = s.pend := by
  unfold clearDone; split <;> rfl
@[simp] theorem clearDone_turns (v : Word) (s : State) : (clearDone v s).turns = s.turns := by
  unfold clearDone; split <;> rfl
@[simp] theorem clearDone_reply (v : Word) (s : State) : (clearDone v s).reply = s.reply := by
  unfold clearDone; split <;> rfl
@[simp] theorem clearDone_freeCount (v : Word) (s : State) : (clearDone v s).freeCount = s.freeCount := by
  unfold clearDone; split <;> rfl

@[simp] theorem clearErr_params (v : Word) (s : State) : (clearErr v s).params = s.params := by
  unfold clearErr; split <;> rfl
@[simp] theorem clearErr_w (v : Word) (s : State) : (clearErr v s).w = s.w := by
  unfold clearErr; split <;> rfl
@[simp] theorem clearErr_x (v : Word) (s : State) : (clearErr v s).x = s.x := by
  unfold clearErr; split <;> rfl
@[simp] theorem clearErr_l (v : Word) (s : State) : (clearErr v s).l = s.l := by
  unfold clearErr; split <;> rfl
@[simp] theorem clearErr_ie (v : Word) (s : State) : (clearErr v s).ie = s.ie := by
  unfold clearErr; split <;> rfl
@[simp] theorem clearErr_done (v : Word) (s : State) : (clearErr v s).done = s.done := by
  unfold clearErr; split <;> rfl
@[simp] theorem clearErr_ni (v : Word) (s : State) : (clearErr v s).ni = s.ni := by
  unfold clearErr; split <;> rfl
@[simp] theorem clearErr_cmd (v : Word) (s : State) : (clearErr v s).cmd = s.cmd := by
  unfold clearErr; split <;> rfl
@[simp] theorem clearErr_callcnt (v : Word) (s : State) : (clearErr v s).callcnt = s.callcnt := by
  unfold clearErr; split <;> rfl
@[simp] theorem clearErr_pend (v : Word) (s : State) : (clearErr v s).pend = s.pend := by
  unfold clearErr; split <;> rfl
@[simp] theorem clearErr_turns (v : Word) (s : State) : (clearErr v s).turns = s.turns := by
  unfold clearErr; split <;> rfl
@[simp] theorem clearErr_reply (v : Word) (s : State) : (clearErr v s).reply = s.reply := by
  unfold clearErr; split <;> rfl
@[simp] theorem clearErr_freeCount (v : Word) (s : State) : (clearErr v s).freeCount = s.freeCount := by
  unfold clearErr; split <;> rfl

@[simp] theorem recordError_err (e : ECode) (info : Word) (s : State) :
    (recordError e info s).err = true := by
  unfold recordError; split
  · assumption
  · rfl

@[simp] theorem recordError_ecode (e : ECode) (info : Word) (s : State) :
    (recordError e info s).ecode = if s.err then s.ecode else e := by
  unfold recordError; split <;> rfl

@[simp] theorem recordError_errinfo (e : ECode) (info : Word) (s : State) :
    (recordError e info s).errinfo = if s.err then s.errinfo else info := by
  unfold recordError; split <;> rfl

@[simp] theorem clearDone_done (v : Word) (s : State) :
    (clearDone v s).done = if v.getLsbD 1 then false else s.done := by
  unfold clearDone; split <;> rfl

@[simp] theorem clearErr_err (v : Word) (s : State) :
    (clearErr v s).err = if v.getLsbD 3 then false else s.err := by
  unfold clearErr; split <;> rfl

@[simp] theorem clearErr_ecode (v : Word) (s : State) :
    (clearErr v s).ecode = if v.getLsbD 3 then .noError else s.ecode := by
  unfold clearErr; split <;> rfl

@[simp] theorem clearErr_errinfo (v : Word) (s : State) :
    (clearErr v s).errinfo = if v.getLsbD 3 then 0#32 else s.errinfo := by
  unfold clearErr; split <;> rfl

@[simp] theorem resetState_params (s : State) : (resetState s).params = s.params := rfl
@[simp] theorem resetState_w (s : State) : (resetState s).w = Vector.replicate 8 0#128 := rfl
@[simp] theorem resetState_x (s : State) : (resetState s).x = Vector.replicate 8 0#32 := rfl
@[simp] theorem resetState_l (s : State) : (resetState s).l = encoderSeed := rfl
@[simp] theorem resetState_ie (s : State) : (resetState s).ie = false := rfl
@[simp] theorem resetState_done (s : State) : (resetState s).done = false := rfl
@[simp] theorem resetState_ni (s : State) : (resetState s).ni = false := rfl
@[simp] theorem resetState_err (s : State) : (resetState s).err = false := rfl
@[simp] theorem resetState_ecode (s : State) : (resetState s).ecode = .noError := rfl
@[simp] theorem resetState_cmd (s : State) : (resetState s).cmd = 0#32 := rfl
@[simp] theorem resetState_callcnt (s : State) : (resetState s).callcnt = 0#32 := rfl
@[simp] theorem resetState_errinfo (s : State) : (resetState s).errinfo = 0#32 := rfl
@[simp] theorem resetState_pend (s : State) : (resetState s).pend = none := rfl
@[simp] theorem resetState_turns (s : State) : (resetState s).turns = s.turns := rfl
@[simp] theorem resetState_reply (s : State) : (resetState s).reply = none := rfl
@[simp] theorem resetState_freeCount (s : State) : (resetState s).freeCount = s.freeCount := rfl

@[simp] theorem resetWith_params (p : Params) : (State.resetWith p).params = p := rfl
@[simp] theorem resetWith_w (p : Params) : (State.resetWith p).w = Vector.replicate 8 0#128 := rfl
@[simp] theorem resetWith_x (p : Params) : (State.resetWith p).x = Vector.replicate 8 0#32 := rfl
@[simp] theorem resetWith_l (p : Params) : (State.resetWith p).l = encoderSeed := rfl
@[simp] theorem resetWith_ie (p : Params) : (State.resetWith p).ie = false := rfl
@[simp] theorem resetWith_done (p : Params) : (State.resetWith p).done = false := rfl
@[simp] theorem resetWith_ni (p : Params) : (State.resetWith p).ni = false := rfl
@[simp] theorem resetWith_err (p : Params) : (State.resetWith p).err = false := rfl
@[simp] theorem resetWith_ecode (p : Params) : (State.resetWith p).ecode = .noError := rfl
@[simp] theorem resetWith_cmd (p : Params) : (State.resetWith p).cmd = 0#32 := rfl
@[simp] theorem resetWith_callcnt (p : Params) : (State.resetWith p).callcnt = 0#32 := rfl
@[simp] theorem resetWith_errinfo (p : Params) : (State.resetWith p).errinfo = 0#32 := rfl
@[simp] theorem resetWith_pend (p : Params) : (State.resetWith p).pend = none := rfl
@[simp] theorem resetWith_turns (p : Params) : (State.resetWith p).turns = [] := rfl
@[simp] theorem resetWith_reply (p : Params) : (State.resetWith p).reply = none := rfl
@[simp] theorem resetWith_freeCount (p : Params) : (State.resetWith p).freeCount = 0 := rfl

theorem reset_eq : State.reset = State.resetWith Params.default := rfl

@[simp] theorem readW_writeW_same (i : WReg) (v : Wide) (s : State) : readW i (writeW i v s) = v := by
  simp [readW, writeW]

@[simp] theorem readW_writeW_of_ne (i j : WReg) (h : i ≠ j) (v : Wide) (s : State) :
    readW i (writeW j v s) = readW i s := by
  have : j.val ≠ i.val := fun e => h (Fin.ext e.symm)
  simp [readW, writeW, this]

@[simp] theorem readX_writeX_same (i : XReg) (v : Word) (s : State) : readX i (writeX i v s) = v := by
  simp [readX, writeX]

@[simp] theorem readX_writeX_of_ne (i j : XReg) (h : i ≠ j) (v : Word) (s : State) :
    readX i (writeX j v s) = readX i s := by
  have : j.val ≠ i.val := fun e => h (Fin.ext e.symm)
  simp [readX, writeX, this]

theorem busy_eq (s : State) : s.busy = s.pend.isSome := rfl

end Sys2Proof.Machine
end

