-- ==== Sys2Proof/Laws/Ops.lean ====
section
/-! SUPPORT. For each shared operation, once, everything it can do: the provers cite these instead of unfolding it. -/

namespace Sys2Proof.Machine

/-! ## Errors, resets, issue -/

theorem recordError_cases (e : ECode) (info : Word) (s : State) :
    (s.err = true ∧ recordError e info s = s) ∨
    (s.err = false ∧ recordError e info s = { s with err := true, ecode := e, errinfo := info }) := by
  unfold recordError
  cases h : s.err
  · exact .inr ⟨rfl, by simp⟩
  · exact .inl ⟨rfl, by simp⟩

theorem writeCtrl_cases (v : Word) (s : State) :
    (v.getLsbD 0 = true ∧ writeCtrl v s = resetState s) ∨
    (v.getLsbD 0 = false ∧ writeCtrl v s = { s with ie := v.getLsbD 1 }) := by
  unfold writeCtrl
  cases h : v.getLsbD 0
  · exact .inr ⟨rfl, by simp⟩
  · exact .inl ⟨rfl, by simp⟩

theorem writeStatus_eq (v : Word) (s : State) :
    writeStatus v s = { s with
      done := if v.getLsbD 1 then false else s.done
      err := if v.getLsbD 3 then false else s.err
      ecode := if v.getLsbD 3 then .noError else s.ecode
      errinfo := if v.getLsbD 3 then 0#32 else s.errinfo } := by
  unfold writeStatus clearErr clearDone
  cases v.getLsbD 1 <;> cases v.getLsbD 3 <;> rfl

theorem issueCommand_cases (c : Word) (s : State) :
    (s.busy = true ∧ issueCommand c s = recordError .busyWrite c s) ∨
    (s.busy = false ∧ decode c = .illegalOpcode ∧ issueCommand c s = recordError .illegalOpcode c s) ∨
    (s.busy = false ∧ decode c = .illegalOperand ∧ issueCommand c s = recordError .illegalOperand c s) ∨
    (s.busy = false ∧ ∃ i, decode c = .command i ∧ issueCommand c s = acceptCommand c s) := by
  unfold issueCommand
  cases h : s.busy
  · cases hd : decode c
    · exact .inr (.inr (.inr ⟨rfl, _, rfl, by simp⟩))
    · exact .inr (.inl ⟨rfl, rfl, by simp⟩)
    · exact .inr (.inr (.inl ⟨rfl, rfl, by simp⟩))
  · exact .inl ⟨rfl, by simp⟩

/-! ## Host accesses -/

theorem readTarget_cases (t : Target) (s : State) :
    (s.busy = true ∧ freeWhileBusy t = true ∧ readTarget t s = answerFree s) ∨
    ((s.busy = false ∨ freeWhileBusy t = false) ∧ readTarget t s = answer (some (valueAt t s)) s) := by
  unfold readTarget
  cases s.busy <;> cases freeWhileBusy t <;> simp

theorem hostRead_cases (width : AccessWidth) (off : BitVec 12) (s : State) :
    (badAccess width off = true ∧
      hostRead width off s = answer (some 0#32) (recordError .badAccess (accessInfo false off) s)) ∨
    (badAccess width off = false ∧ targetAt off.toNat = none ∧
      hostRead width off s = answer (some 0#32) (recordError .unmapped (accessInfo false off) s)) ∨
    (badAccess width off = false ∧ ∃ t, targetAt off.toNat = some t ∧ hostRead width off s = readTarget t s) := by
  unfold hostRead
  cases h : badAccess width off
  · cases ht : targetAt off.toNat with
    | none => exact .inr (.inl ⟨rfl, rfl, by simp⟩)
    | some t => exact .inr (.inr ⟨rfl, t, rfl, by simp⟩)
  · exact .inl ⟨rfl, by simp⟩

theorem hostWrite_cases (width : AccessWidth) (off : BitVec 12) (v : Word) (s : State) :
    (badAccess width off = true ∧
      hostWrite width off v s = answer none (recordError .badAccess (accessInfo true off) s)) ∨
    (badAccess width off = false ∧ targetAt off.toNat = none ∧
      hostWrite width off v s = answer none (recordError .unmapped (accessInfo true off) s)) ∨
    (badAccess width off = false ∧ ∃ t, targetAt off.toNat = some t ∧
      hostWrite width off v s = answer none (writeTarget t off v s)) := by
  unfold hostWrite
  cases h : badAccess width off
  · cases ht : targetAt off.toNat with
    | none => exact .inr (.inl ⟨rfl, rfl, by simp⟩)
    | some t => exact .inr (.inr ⟨rfl, t, rfl, by simp⟩)
  · exact .inl ⟨rfl, by simp⟩

theorem writeWindow_cases (off : BitVec 12) (store s : State) :
    (s.busy = true ∧ writeWindow off store s = recordError .busyWrite (accessInfo true off) s) ∨
    (s.busy = false ∧ writeWindow off store s = store) := by
  unfold writeWindow
  cases s.busy <;> simp

theorem hostAccess_cases (a : Access) (s : State) :
    (a.addr / 4096 = s.params.page ∧
      hostAccess a s = .next (windowAccess a (BitVec.ofNat 12 a.addr) s)) ∨
    (a.addr / 4096 ≠ s.params.page ∧ hostAccess a s = .fault (.outsideWindow a.addr)) := by
  unfold hostAccess
  by_cases h : a.addr / 4096 = s.params.page
  · exact .inl ⟨h, by simp [h]⟩
  · exact .inr ⟨h, by simp [h]⟩

/-- An access at window offset `off` reaches the window at that offset. -/
theorem hostAccess_of_offset (a : Access) (s : State) (off : Nat) (ha : a.addr = s.params.base + off)
    (h : off < 4096) : hostAccess a s = .next (windowAccess a (BitVec.ofNat 12 off) s) := by
  have hp : a.addr / 4096 = s.params.page := by rw [ha, Params.base]; omega
  have ho : BitVec.ofNat 12 a.addr = BitVec.ofNat 12 off := by
    apply BitVec.eq_of_toNat_eq
    simp only [BitVec.toNat_ofNat, ha, Params.base]
    omega
  simp [hostAccess, hp, ho]

/-- A mapped word's offset, as the map of R71 lists it. -/
theorem targetAt_cases (off : Nat) :
    (targetAt off = none ∧ ((0x018 ≤ off ∧ off < 0x040) ∨ 0x0F0 ≤ off ∨ (off < 0x018 ∧ off % 4 ≠ 0))) ∨
    (∃ t, targetAt off = some t ∧ (off < 0x018 ∨ (0x040 ≤ off ∧ off < 0x0F0))) := by
  unfold targetAt
  repeat' split
  all_goals first
    | exact .inr ⟨_, rfl, by omega⟩
    | exact .inl ⟨rfl, by omega⟩

/-! ## Steps -/

theorem engineTurn_idle (s : State) (h : s.pend = none) : engineTurn s = .next s := by
  simp [engineTurn, fetchWord, h]

theorem engineTurn_runs (s : State) (c : Word) (i : Instr) (hp : s.pend = some c)
    (hd : decode c = .command i) : engineTurn s = exec i s := by
  simp [engineTurn, fetchWord, hp, hd]

theorem engineTurn_cases (s : State) :
    (s.pend = none ∧ engineTurn s = .next s) ∨
    (∃ c i, s.pend = some c ∧ decode c = .command i ∧ engineTurn s = exec i s) ∨
    (∃ c, s.pend = some c ∧ (decode c).instr? = none ∧ engineTurn s = .refused (.undecodedLatch c)) := by
  cases hp : s.pend with
  | none => exact .inl ⟨rfl, engineTurn_idle s hp⟩
  | some c =>
    cases hd : decode c with
    | command i => exact .inr (.inl ⟨c, i, rfl, hd, engineTurn_runs s c i hp hd⟩)
    | illegalOpcode => exact .inr (.inr ⟨c, rfl, by simp [hd, Decoded.instr?], by simp [engineTurn, fetchWord, hp, hd]⟩)
    | illegalOperand => exact .inr (.inr ⟨c, rfl, by simp [hd, Decoded.instr?], by simp [engineTurn, fetchWord, hp, hd]⟩)

theorem step_cases (s : State) :
    (s.turns = [] ∧ step s = engineTurn s) ∨
    (∃ ts, s.turns = .engine :: ts ∧ step s = engineTurn (setTurns ts s)) ∨
    (∃ a ts, s.turns = .host a :: ts ∧ step s = hostAccess a (setTurns ts s)) ∨
    (∃ ts, s.turns = .reset :: ts ∧ step s = .next (resetState (setTurns ts s))) := by
  unfold step
  split
  · exact .inl ⟨by assumption, rfl⟩
  · exact .inr (.inl ⟨_, by assumption, rfl⟩)
  · exact .inr (.inr (.inl ⟨_, _, by assumption, rfl⟩))
  · exact .inr (.inr (.inr ⟨_, by assumption, rfl⟩))

/-- What withFetchWord changes: the latch, CMD and DONE as an acceptance does, and whose turn it is. -/
theorem withFetchWord_eq (s : State) (nbits w : Nat) :
    s.withFetchWord nbits w = { s with
      cmd := BitVec.ofNat 32 (w % 2 ^ nbits)
      pend := some (BitVec.ofNat 32 (w % 2 ^ nbits))
      done := false
      turns := engineFirst s.turns } := rfl

/-! ## The forms of the meanings -/

/-- INV3 either fails, writing NI alone, or writes an inverse. -/
theorem execInv3_cases (d src : WReg) (s : State) :
    (invertMod (m3Of (readW src s)) = none ∧ execInv3 d src s = .next (complete (setNi true s))) ∨
    (∃ R, invertMod (m3Of (readW src s)) = some R ∧
      execInv3 d src s = .next (complete (setNi false (writeW d (wideOfM3 R) s)))) := by
  unfold execInv3
  cases h : invertMod (m3Of (readW src s)) with
  | none => exact .inl ⟨rfl, rfl⟩
  | some R => exact .inr ⟨R, rfl, rfl⟩

/-- GINV either fails, writing NI alone, or writes an inverse. -/
theorem execGinv_cases (d src : WReg) (s : State) :
    (invertGf2 (b8Of (readW src s)) = none ∧ execGinv d src s = .next (complete (setNi true s))) ∨
    (∃ R, invertGf2 (b8Of (readW src s)) = some R ∧
      execGinv d src s = .next (complete (setNi false (writeW d (wideOfB8 R) s)))) := by
  unfold execGinv
  cases h : invertGf2 (b8Of (readW src s)) with
  | none => exact .inl ⟨rfl, rfl⟩
  | some R => exact .inr ⟨R, rfl, rfl⟩

/-- LDRAW either writes its mask and completes, or only advances the generator. -/
theorem execLdraw_cases (d : XReg) (s : State) :
    (∃ m v n, draw s.params.chain s.l = .drew m v n ∧
      execLdraw d s = .next (complete (writeX d (wordOfByte m) (advanceL v n s)))) ∨
    (∃ v n, draw s.params.chain s.l = .hang v n ∧ execLdraw d s = .next (advanceL v n s)) := by
  unfold execLdraw
  cases h : draw s.params.chain s.l with
  | drew m v n => exact .inl ⟨m, v, n, rfl, rfl⟩
  | hang v n => exact .inr ⟨v, n, rfl, rfl⟩

/-- A masked transform either writes its block and completes, or only advances the generator. -/
theorem maskedTransform_cases (factor : Masks → Masks) (d k b : WReg) (s : State) :
    (∃ m v n, drawMasks s.params.chain s.l = .drew m v n ∧
      maskedTransform factor d k b s = .next (complete (writeW d
        (wideOfV3 (matMulVecMod (m3Of (readW k s)) (maskBlock (factor m) (v3Of (readW b s)))))
        (advanceL v n s)))) ∨
    (∃ v n, drawMasks s.params.chain s.l = .hang v n ∧
      maskedTransform factor d k b s = .next (advanceL v n s)) := by
  unfold maskedTransform
  cases h : drawMasks s.params.chain s.l with
  | drew m v n => exact .inl ⟨m, v, n, rfl, rfl⟩
  | hang v n => exact .inr ⟨v, n, rfl, rfl⟩

end Sys2Proof.Machine
end

