-- ==== Sys2Proof/Laws/PerInstr.lean ====
section
/-! SUPPORT. Facts about every command as syntax, one lemma per constructor of Instr. -/

namespace Sys2Proof.Laws.EncodingFitsRow

/-- A command's word fits the match and mask of a row of the opcode table with its mnemonic (R105). -/
def Statement (i : Instr) : Prop :=
  ∃ row ∈ opcodeTable, row.mnemonic = i.mnemonic ∧ encode i &&& row.mask = row.pattern

theorem nop : Statement .nop := by unfold Statement; decide

theorem sinv (d src : XReg) : Statement (.sinv d src) :=
  ⟨⟨"SINV", 0x04000000#32, 0xFC0FFFFF#32⟩, by simp [opcodeTable], rfl, commandWord_maskTwo ..⟩

theorem det3 (d : XReg) (src : WReg) : Statement (.det3 d src) :=
  ⟨⟨"DET3", 0x08000000#32, 0xFC0FFFFF#32⟩, by simp [opcodeTable], rfl, commandWord_maskTwo ..⟩

theorem adj3 (d src : WReg) : Statement (.adj3 d src) :=
  ⟨⟨"ADJ3", 0x0C000000#32, 0xFC0FFFFF#32⟩, by simp [opcodeTable], rfl, commandWord_maskTwo ..⟩

theorem inv3 (d src : WReg) : Statement (.inv3 d src) :=
  ⟨⟨"INV3", 0x10000000#32, 0xFC0FFFFF#32⟩, by simp [opcodeTable], rfl, commandWord_maskTwo ..⟩

theorem mvm3 (d k v : WReg) : Statement (.mvm3 d k v) :=
  ⟨⟨"MVM3", 0x14000000#32, 0xFC01FFFF#32⟩, by simp [opcodeTable], rfl, commandWord_maskThree ..⟩

theorem gmm (d a b : WReg) : Statement (.gmm d a b) :=
  ⟨⟨"GMM", 0x20000000#32, 0xFC01FFFF#32⟩, by simp [opcodeTable], rfl, commandWord_maskThree ..⟩

theorem gmv (d a v : WReg) : Statement (.gmv d a v) :=
  ⟨⟨"GMV", 0x24000000#32, 0xFC01FFFF#32⟩, by simp [opcodeTable], rfl, commandWord_maskThree ..⟩

theorem ginv (d src : WReg) : Statement (.ginv d src) :=
  ⟨⟨"GINV", 0x28000000#32, 0xFC0FFFFF#32⟩, by simp [opcodeTable], rfl, commandWord_maskTwo ..⟩

theorem gisinv (d : XReg) (src : WReg) : Statement (.gisinv d src) :=
  ⟨⟨"GISINV", 0x2C000000#32, 0xFC0FFFFF#32⟩, by simp [opcodeTable], rfl, commandWord_maskTwo ..⟩

theorem lseed : Statement .lseed := by unfold Statement; decide

theorem lload (src : WReg) : Statement (.lload src) :=
  ⟨⟨"LLOAD", 0x44000000#32, 0xFF8FFFFF#32⟩, by simp [opcodeTable], rfl, commandWord_maskRs1Only ..⟩

theorem lstore (d : WReg) : Statement (.lstore d) :=
  ⟨⟨"LSTORE", 0x48000000#32, 0xFC7FFFFF#32⟩, by simp [opcodeTable], rfl, commandWord_maskRdOnly ..⟩

theorem lcall (d : XReg) (n : BitVec 16) : Statement (.lcall d n) :=
  ⟨⟨"LCALL", 0x4C000000#32, 0xFC7F0000#32⟩, by simp [opcodeTable], rfl, commandWord_maskLcall ..⟩

theorem ldraw (d : XReg) : Statement (.ldraw d) :=
  ⟨⟨"LDRAW", 0x50000000#32, 0xFC7FFFFF#32⟩, by simp [opcodeTable], rfl, commandWord_maskRdOnly ..⟩

theorem lock (d k b : WReg) : Statement (.lock d k b) :=
  ⟨⟨"LOCK", 0x60000000#32, 0xFC01FFFF#32⟩, by simp [opcodeTable], rfl, commandWord_maskThree ..⟩

theorem unlock (d k b : WReg) : Statement (.unlock d k b) :=
  ⟨⟨"UNLOCK", 0x64000000#32, 0xFC01FFFF#32⟩, by simp [opcodeTable], rfl, commandWord_maskThree ..⟩

end Sys2Proof.Laws.EncodingFitsRow
end

