-- ==== Sys2Proof/Tests/Slice0.lean ====
section
/-! SUPPORT. Tests, each about one step, with expected values from spec/95_test_vectors.md (section and row in the
comments), and for every statement with hypotheses a state and operands that meet them. -/

namespace Sys2Proof.Tests

set_option Elab.async false

open Sys2Proof Sys2Proof.Machine

/-! ## Well-formedness -/

/-- R101: LCALL with count 0 is refused. -/
theorem test_lcall_zero_is_ill_formed : (Instr.lcall 0 0#16).wellFormed = false := by decide

theorem test_lcall_one_is_well_formed : (Instr.lcall 0 1#16).wellFormed = true := by decide

/-! ## Decoding: the words of section 7, written out from R102 and R105 -/

theorem test_word_nop : decode 0x00000000#32 = .command .nop ∧ encode .nop = 0x00000000#32 := by decide
theorem test_word_sinv : decode 0x05100000#32 = .command (.sinv 2 1) ∧ encode (.sinv 2 1) = 0x05100000#32 := by decide
theorem test_word_det3 : decode 0x08000000#32 = .command (.det3 0 0) ∧ encode (.det3 0 0) = 0x08000000#32 := by decide
theorem test_word_adj3 : decode 0x0C800000#32 = .command (.adj3 1 0) ∧ encode (.adj3 1 0) = 0x0C800000#32 := by decide
theorem test_word_inv3 : decode 0x10800000#32 = .command (.inv3 1 0) ∧ encode (.inv3 1 0) = 0x10800000#32 := by decide
theorem test_word_mvm3 : decode 0x15100000#32 = .command (.mvm3 2 1 0) ∧ encode (.mvm3 2 1 0) = 0x15100000#32 := by
  decide
theorem test_word_gmm : decode 0x21940000#32 = .command (.gmm 3 1 2) ∧ encode (.gmm 3 1 2) = 0x21940000#32 := by decide
theorem test_word_gmv : decode 0x25940000#32 = .command (.gmv 3 1 2) ∧ encode (.gmv 3 1 2) = 0x25940000#32 := by decide
theorem test_word_ginv : decode 0x28800000#32 = .command (.ginv 1 0) ∧ encode (.ginv 1 0) = 0x28800000#32 := by decide
theorem test_word_gisinv : decode 0x2C400000#32 = .command (.gisinv 0 4) ∧ encode (.gisinv 0 4) = 0x2C400000#32 := by
  decide
theorem test_word_lseed : decode 0x40000000#32 = .command .lseed ∧ encode .lseed = 0x40000000#32 := by decide
theorem test_word_lload : decode 0x44500000#32 = .command (.lload 5) ∧ encode (.lload 5) = 0x44500000#32 := by decide
theorem test_word_lstore : decode 0x4B800000#32 = .command (.lstore 7) ∧ encode (.lstore 7) = 0x4B800000#32 := by decide
theorem test_word_lcall :
    decode 0x4F80FFFF#32 = .command (.lcall 7 65535#16) ∧ encode (.lcall 7 65535#16) = 0x4F80FFFF#32 := by decide
theorem test_word_ldraw : decode 0x51000000#32 = .command (.ldraw 2) ∧ encode (.ldraw 2) = 0x51000000#32 := by decide
theorem test_word_lock : decode 0x61940000#32 = .command (.lock 3 1 2) ∧ encode (.lock 3 1 2) = 0x61940000#32 := by
  decide
theorem test_word_unlock :
    decode 0x67FE0000#32 = .command (.unlock 7 7 7) ∧ encode (.unlock 7 7 7) = 0x67FE0000#32 := by decide

/-- Section 7's rejected words: two reserved opcodes. -/
theorem test_reserved_opcodes : decode 0x18000000#32 = .illegalOpcode ∧ decode 0xFC000000#32 = .illegalOpcode := by
  decide

/-- Section 7's rejected words: a nonzero unused field of each kind, and LCALL with count 0. -/
theorem test_illegal_operands :
    ([0x00000001#32, 0x4C000000#32, 0x04010000#32, 0x04020000#32, 0x44800000#32, 0x40000001#32,
      0x4FFFFFFF#32, 0x5380FFFF#32, 0x67FF0000#32].all fun c => decode c == .illegalOperand) = true := by decide

theorem test_table_word : decodeTableWord 32 0x15100000 = some (.mvm3 2 1 0) ∧ decodeTableWord 32 0x4C000000 = none := by
  decide +kernel

/-! ## Commands -/

/-- The next state of an outcome. -/
def nextOf : Host.Outcome State Fault Refusal → Option State
  | .next s => some s
  | .fault _ => none
  | .refused _ => none

/-- The reset state with W`i` holding the listed bytes. -/
def withW (i : WReg) (bs : List Byte) (s : State) : State := writeW i (wideOfBytes bs) s

theorem next_of_isSome {o : Host.Outcome State Fault Refusal} (h : (nextOf o).isSome = true) : ∃ t, o = .next t := by
  cases o <;> first | exact ⟨_, rfl⟩ | cases h

/-- W`i` after a command. -/
def wAfter (i : WReg) (c : Instr) (s : State) : Option Wide := (nextOf (exec c s)).map (readW i)

/-- X`i` and NI after a command. -/
def xAfter (i : XReg) (c : Instr) (s : State) : Option (Word × Bool) :=
  (nextOf (exec c s)).map fun t => (readX i t, t.ni)

/-- L, CALLCNT and BUSY after a command. -/
def lAfter (c : Instr) (s : State) : Option (Wide × Word × Bool) :=
  (nextOf (exec c s)).map fun t => (t.l, t.callcnt, t.busy)

/-- The document's key `010203040506070809`. -/
def k9 : List Byte := [1, 2, 3, 4, 5, 6, 7, 8, 9]

/-- The matrix `020301010101010203`, of determinant −3. -/
def kMinus3 : List Byte := [2, 3, 1, 1, 1, 1, 1, 2, 3]

/-- The upper triangle of ones over GF(2). -/
def upper : List Byte := [0xff, 0x7f, 0x3f, 0x1f, 0x0f, 0x07, 0x03, 0x01]

/-- Section 2: the inverse of 0xFFFFFFFD (−3) is 85; 0x12345603 reads as 3. -/
theorem test_sinv_odd :
    xAfter 2 (.sinv 2 1) (writeX 1 0xFFFFFFFD#32 State.reset) = some (0x55#32, false) ∧
    xAfter 1 (.sinv 1 1) (writeX 1 0x12345603#32 State.reset) = some (0xAB#32, false) := by decide +kernel

/-- Section 2: 0x80 has no inverse. -/
theorem test_sinv_even : xAfter 2 (.sinv 2 1) (writeX 1 0x80#32 State.reset) = some (0#32, true) := by decide +kernel

/-- Section 3: determinant −3, two's complement; and the largest upper triangle. -/
theorem test_det3 :
    xAfter 0 (.det3 0 0) (withW 0 kMinus3 State.reset) = some (0xFFFFFFFD#32, false) ∧
    xAfter 0 (.det3 0 0) (withW 0 [255, 255, 255, 0, 255, 255, 0, 0, 255] State.reset)
      = some (0x00FD02FF#32, false) := by decide +kernel

/-- Section 3: a singular matrix still has an adjugate, `fd06fd06f406fd06fd`. -/
theorem test_adj3 :
    wAfter 1 (.adj3 1 0) (withW 0 k9 State.reset)
      = some (wideOfBytes [0xfd, 0x06, 0xfd, 0x06, 0xf4, 0x06, 0xfd, 0x06, 0xfd]) := by decide +kernel

/-- Section 3: the inverse `55adaa56a9ab55abab` of a matrix with a negative odd determinant. -/
theorem test_inv3 :
    wAfter 0 (.inv3 0 0) (withW 0 kMinus3 State.reset)
      = some (wideOfBytes [0x55, 0xad, 0xaa, 0x56, 0xa9, 0xab, 0x55, 0xab, 0xab]) := by decide +kernel

/-- Program P6: INV3 of a singular matrix leaves its destination and sets NI. -/
theorem test_inv3_fails :
    (nextOf (exec (.inv3 2 1) (withW 2 [7] (withW 1 k9 State.reset)))).map (fun t => (readW 2 t, t.ni))
      = some (7#128, true) := by decide +kernel

/-- Section 1, S1, in place: key 1..9 times (10, 20, 30) is (140, 64, 244). -/
theorem test_mvm3 :
    wAfter 0 (.mvm3 0 1 0) (withW 0 [10, 20, 30] (withW 1 k9 State.reset))
      = some (wideOfBytes [140, 64, 244]) := by decide +kernel

/-- Section 4: U times U is `aa552a150a050201`. -/
theorem test_gmm :
    wAfter 1 (.gmm 1 0 0) (withW 0 upper State.reset)
      = some (wideOfBytes [0xaa, 0x55, 0x2a, 0x15, 0x0a, 0x05, 0x02, 0x01]) := by decide +kernel

/-- Section 4: U times 0xFF is 0x55, and times 0x80 is 0x80. -/
theorem test_gmv :
    wAfter 2 (.gmv 2 0 1) (withW 1 [0xff] (withW 0 upper State.reset)) = some (wideOfBytes [0x55]) ∧
    wAfter 1 (.gmv 1 0 1) (withW 1 [0x80] (withW 0 upper State.reset)) = some (wideOfBytes [0x80]) := by
  decide +kernel

/-- Section 4: the inverse of `8142241819264689` (which needs row swaps) is `9864629181422418`. -/
theorem test_ginv :
    wAfter 1 (.ginv 1 0) (withW 0 [0x81, 0x42, 0x24, 0x18, 0x19, 0x26, 0x46, 0x89] State.reset)
      = some (wideOfBytes [0x98, 0x64, 0x62, 0x91, 0x81, 0x42, 0x24, 0x18]) := by decide +kernel

/-- Section 4: two equal rows: the destination is unchanged. -/
theorem test_ginv_fails :
    wAfter 1 (.ginv 1 0) (withW 1 [9] (withW 0 [0x80, 0x80, 0x20, 0x10, 0x08, 0x04, 0x02, 0x01] State.reset))
      = some 9#128 := by decide +kernel

/-- Section 4: GISINV of U is 1, of the zero matrix 0 with NI. -/
theorem test_gisinv :
    xAfter 3 (.gisinv 3 0) (withW 0 upper State.reset) = some (1#32, false) ∧
    xAfter 3 (.gisinv 3 0) State.reset = some (0#32, true) := by decide +kernel

/-- R190, R192: the seed. -/
theorem test_lseed :
    lAfter .lseed (setL 5#128 State.reset)
      = some (wideOfBytes [1, 0, 0, 0, 0, 0, 0, 0, 0, 0, 0, 0, 0, 0, 0, 0x80], 0#32, false) := by decide +kernel

theorem test_lload : lAfter (.lload 5) (withW 5 k9 State.reset) = some (wideOfBytes k9, 0#32, false) := by
  decide +kernel

/-- Section 5: after reset LSTORE gives the seed. -/
theorem test_lstore :
    wAfter 0 (.lstore 0) State.reset
      = some (wideOfBytes [1, 0, 0, 0, 0, 0, 0, 0, 0, 0, 0, 0, 0, 0, 0, 0x80]) := by decide +kernel

/-- Section 5, F2B: one call from the seed gives 0xF5D1. -/
theorem test_lcall_front_to_back :
    xAfter 1 (.lcall 1 1#16) State.reset = some (0xF5D1#32, false) := by decide +kernel

/-- Section 5, B2F: L after five calls is `00000000000000000000002301000000`, and CALLCNT is 5. -/
theorem test_lcall_back_to_front :
    lAfter (.lcall 1 5#16) (State.resetWith ⟨.backToFront, 0⟩)
      = some (wideOfBytes [0, 0, 0, 0, 0, 0, 0, 0, 0, 0, 0, 0x23, 1], 5#32, false) := by decide +kernel

/-- Section 5, draws: from the seed F2B gives 209 in one call, B2F gives 1 in four. -/
theorem test_ldraw :
    xAfter 2 (.ldraw 2) State.reset = some (0xD1#32, false) ∧
    lAfter (.ldraw 2) (State.resetWith ⟨.backToFront, 0⟩)
      = some (wideOfBytes [1, 0, 0, 0, 0, 0, 0, 0, 0, 0, 0, 0, 0, 0, 0, 0x23], 4#32, false) := by decide +kernel

/-- Program P7: a draw from L = 0 hangs: BUSY stays 1, DONE stays 0 and X0 is not written. -/
theorem test_ldraw_hangs :
    (nextOf (exec (.ldraw 0) (acceptCommand 0x50000000#32 (setL 0#128 (writeX 0 3#32 State.reset))))).map
      (fun t => (t.busy, t.done, readX 0 t, t.err)) = some (true, false, 3#32, false) := by decide +kernel

/-- Section 6: LOCK K9 of (10, 20, 30) from the seed, F2B: (72, 192, 56), five calls. -/
theorem test_lock :
    (nextOf (exec (.lock 2 1 0) (withW 0 [10, 20, 30] (withW 1 k9 State.reset)))).map
      (fun t => (readW 2 t, t.callcnt)) = some (wideOfBytes [72, 192, 56], 5#32) := by decide +kernel

/-- Section 6: UNLOCK K9 of (10, 20, 30) from the seed, F2B: (72, 32, 248), five calls. -/
theorem test_unlock :
    (nextOf (exec (.unlock 2 1 0) (withW 0 [10, 20, 30] (withW 1 k9 State.reset)))).map
      (fun t => (readW 2 t, t.callcnt)) = some (wideOfBytes [72, 32, 248], 5#32) := by decide +kernel

theorem test_nop :
    (nextOf (exec .nop (acceptCommand 0#32 State.reset))).map (fun t => (t.busy, t.done)) = some (false, true) := by
  decide +kernel

/-- Section 5: one step from `03…01` in both directions. -/
theorem test_shiftStep :
    shiftStep .frontToBack (wideOfBytes [3, 0, 0, 0, 0, 0, 0, 0, 0, 0, 0, 0, 0, 0, 0, 1])
      = wideOfBytes [0x01, 0x80] ∧
    shiftStep .backToFront (wideOfBytes [3, 0, 0, 0, 0, 0, 0, 0, 0, 0, 0, 0, 0, 0, 0, 1])
      = wideOfBytes [1, 0, 0, 0, 0, 0, 0, 0, 0, 0, 0, 0, 0, 0, 0x80] := by decide

/-! ## Host accesses: section 8 -/

/-- A step of the machine in which the host performs the access, as (reply, STATUS, ERRINFO). -/
def hostStep (a : Access) (s : State) : Option (Option Word × Word × Word) :=
  (nextOf (step (setTurns [.host a] s))).map fun t => (t.reply, statusWord t, t.errinfo)

/-- The reset state with a NOP accepted and BUSY = 1. -/
def busyState : State := acceptCommand 0#32 State.reset

theorem test_read_id : hostStep ⟨0x000, .bits32, .read⟩ State.reset = some (some 0x46454331#32, 0#32, 0#32) := by
  decide +kernel

theorem test_sixteen_bit_write :
    hostStep ⟨0x042, .bits16, .write 0x1234#32⟩ State.reset = some (none, 0x408#32, 0x00010042#32) := by decide +kernel

theorem test_unmapped_read :
    hostStep ⟨0x100, .bits32, .read⟩ State.reset = some (some 0#32, 0x508#32, 0x00000100#32) := by decide +kernel

theorem test_read_only_write :
    hostStep ⟨0x010, .bits32, .write 5#32⟩ State.reset = some (none, 0x608#32, 0x00010010#32) := by decide +kernel

theorem test_misaligned_read :
    hostStep ⟨0x003, .bits32, .read⟩ State.reset = some (some 0#32, 0x408#32, 0x00000003#32) := by decide +kernel

theorem test_busy_window_write :
    hostStep ⟨0x0C0, .bits32, .write 1#32⟩ busyState = some (none, 0x309#32, 0x000100C0#32) := by decide +kernel

theorem test_busy_command_write :
    hostStep ⟨0x00C, .bits32, .write 0#32⟩ busyState = some (none, 0x309#32, 0#32) := by decide +kernel

theorem test_busy_byte_write :
    hostStep ⟨0x00C, .bits8, .write 0#32⟩ busyState = some (none, 0x409#32, 0x0001000C#32) := by decide +kernel

theorem test_reserved_command :
    hostStep ⟨0x00C, .bits32, .write 0x18000000#32⟩ State.reset = some (none, 0x108#32, 0x18000000#32) := by
  decide +kernel

/-- R245: the first error is kept. -/
theorem test_first_error_kept :
    hostStep ⟨0x000, .bits32, .write 0#32⟩ (recordError .unmapped 0x100#32 State.reset)
      = some (none, 0x508#32, 0x100#32) := by decide +kernel

/-- R74's example: the word 0x04030201 at 0x050 sets W1 bytes 0..3 to 1, 2, 3, 4. -/
theorem test_window_write :
    (nextOf (step (setTurns [.host ⟨0x050, .bits32, .write 0x04030201#32⟩] State.reset))).map (readW 1)
      = some (wideOfBytes [1, 2, 3, 4]) := by decide +kernel

/-- SRST with IE: a full reset, IE discarded. -/
theorem test_soft_reset :
    (nextOf (step (setTurns [.host ⟨0x004, .bits32, .write 3#32⟩] busyState))).map (fun t => (ctrlWord t, t.pend))
      = some (0#32, none) := by decide +kernel

/-- The window of another page. -/
theorem test_outside_window :
    step (setTurns [.host ⟨0x1000, .bits32, .read⟩] State.reset) = .fault (.outsideWindow 0x1000) := rfl

theorem test_fetch_word_runs :
    step (State.reset.withFetchWord 32 0x05100000) = exec (.sinv 2 1) (State.reset.withFetchWord 32 0x05100000) := rfl

/-! ## Witnesses: for every statement with hypotheses, a state and operands that meet them -/

/-- The state after reset with the given turns to come, on page 3. -/
def turning (ts : List Turn) : State := setTurns ts (State.resetWith ⟨.frontToBack, 3⟩)

/-- The same with the word of LDRAW X0 in the latch. -/
def running (ts : List Turn) : State := acceptCommand 0x50000000#32 (turning ts)

/-- Parameters of `turning`. -/
def page3 : Params := ⟨.frontToBack, 3⟩

theorem witness_ResetGivesEveryRegisterItsValue :
    (running [.reset]).turns = .reset :: [] ∧
    ((running [.host (writeAt page3 0x004 3#32)]).turns
        = .host (writeAt (running [.host (writeAt page3 0x004 3#32)]).params 0x004 3#32) :: [] ∧
      (3#32).getLsbD 0 = true) := ⟨rfl, rfl, rfl⟩

theorem inv_running (ts : List Turn) : CoreInv (running ts) := by
  refine ⟨?_, ⟨⟨fun h => Bool.noConfusion h, fun h => absurd rfl h⟩, fun _ => rfl⟩, ?_⟩
  rotate_left
  · show (decode 0x50000000#32).instr?.isSome = true
    decide
  show _ ∧ _ ∧ _
  exact ⟨rfl, rfl, rfl⟩

theorem inv_turning (ts : List Turn) : CoreInv (turning ts) :=
  ⟨trivial, ⟨⟨fun h => Bool.noConfusion h, fun h => absurd rfl h⟩, fun _ => rfl⟩,
    show (decode 0#32).instr?.isSome = true by decide⟩

theorem witness_EveryStepKeepsInvariant :
    CoreInv (running [.host (readAt page3 0x008)]) ∧ ∃ t, step (running [.host (readAt page3 0x008)]) = .next t :=
  ⟨inv_running _, _, rfl⟩

theorem witness_StepStopsOnlyOutsideTheWindow :
    (CoreInv (turning [.host (readAt page3 0xFFF)]) ∧ inWindow page3 (.host (readAt page3 0xFFF)) ∧
      inWindow page3 (.host (readAt page3 0x000))) ∧
    (CoreInv (turning [.host (readAt page3 0x1000)]) ∧ ¬ inWindow page3 (.host (readAt page3 0x1000)) ∧
      ¬ inWindow page3 (.host ⟨0x2FFF, .bits32, .read⟩)) :=
  ⟨⟨inv_turning _, by decide, by decide⟩, inv_turning _, by decide, by decide⟩

theorem witness_ParametersNeverChange : ∃ t, step (turning [.reset]) = .next t := ⟨_, rfl⟩

theorem witness_DecodeOfEncodeIsIdentity :
    (Instr.lcall 7 1#16).wellFormed = true ∧ (Instr.lcall 7 65535#16).wellFormed = true := by decide

theorem witness_EncodeOfDecodeIsIdentity : decode 0x67FE0000#32 = .command (.unlock 7 7 7) := by decide

theorem witness_WordsAreClassifiedByTheOpcodeTable :
    (⟨"LCALL", 0x4C000000#32, 0xFC7F0000#32⟩ : OpcodeRow) ∈ opcodeTable ∧
    matchesRow 0x4C000001#32 ⟨"LCALL", 0x4C000000#32, 0xFC7F0000#32⟩ ∧
    ¬ matchesRow 0x4C000000#32 ⟨"LCALL", 0x4C000000#32, 0xFC7F0000#32⟩ ∧
    reservedOpcode 0x05 = false ∧ reservedOpcode 0x06 = true ∧ reservedOpcode 0x07 = true ∧
    reservedOpcode 0x08 = false ∧ reservedOpcode 0x0B = false ∧ reservedOpcode 0x0C = true ∧
    reservedOpcode 0x0F = true ∧ reservedOpcode 0x10 = false ∧ reservedOpcode 0x14 = false ∧
    reservedOpcode 0x15 = true ∧ reservedOpcode 0x17 = true ∧ reservedOpcode 0x18 = false ∧
    reservedOpcode 0x19 = false ∧ reservedOpcode 0x1A = true ∧ reservedOpcode 0x3F = true := by decide

theorem witness_StepRunsTheLatchedCommand :
    ((running []).pend = some 0x50000000#32 ∧ decode 0x50000000#32 = .command (.ldraw 0) ∧ (running []).turns = [] ∧
      (running [.engine]).turns = .engine :: []) ∧
    ((turning []).pend = none ∧ (turning []).turns = [] ∧ (turning [.engine]).turns = .engine :: []) := by decide

/-- The clauses of AccessErrorsInPriorityOrder at the ends of its offset ranges. -/
theorem witness_AccessErrorsInPriorityOrder :
    ((turning [.host (readAt page3 0xFFC)]).turns = .host (readAt page3 0xFFC) :: [] ∧
      (readAt page3 0xFFC).addr = page3.base + 0xFFC ∧ 0xFFC < 4096) ∧
    raisedError false .bits32 .read 0x014 = none ∧ raisedError false .bits32 .read 0x015 = some (.badAccess, 0x15#32) ∧
    raisedError false .bits32 .read 0x018 = some (.unmapped, 0x18#32) ∧
    raisedError false .bits32 .read 0x03C = some (.unmapped, 0x3C#32) ∧
    raisedError true .bits32 .read 0x040 = none ∧ raisedError true .bits32 .read 0x0EC = none ∧
    raisedError true .bits32 .read 0x0F0 = some (.unmapped, 0xF0#32) ∧
    raisedError true .bits32 (.write 1#32) 0x014 = some (.roWrite, 0x10014#32) ∧
    raisedError true .bits32 (.write 1#32) 0x008 = none ∧
    raisedError true .bits32 (.write 1#32) 0x00C = some (.busyWrite, 1#32) ∧
    raisedError true .bits32 (.write 1#32) 0x040 = some (.busyWrite, 0x10040#32) ∧
    raisedError true .bits32 (.write 1#32) 0x0EC = some (.busyWrite, 0x100EC#32) ∧
    raisedError true .bits32 (.write 1#32) 0xFFC = some (.unmapped, 0x10FFC#32) ∧
    raisedError false .bits32 (.write 0x18000000#32) 0x00C = some (.illegalOpcode, 0x18000000#32) ∧
    raisedError false .bits32 (.write 0x00000001#32) 0x00C = some (.illegalOperand, 1#32) ∧
    raisedError false .bits32 (.write 0#32) 0x00C = none := by decide

theorem witness_CommandWriteIsAccepted :
    (Instr.lock 3 1 2).wellFormed = true ∧ (turning [.host (writeAt page3 0x00C 0x61940000#32)]).pend = none ∧
    (turning [.host (writeAt page3 0x00C 0x61940000#32)]).turns
      = .host (writeAt page3 0x00C (encode (.lock 3 1 2))) :: [] := by decide

theorem witness_AcceptedCommandCompletes :
    (Instr.lcall 0 1#16).wellFormed = true ∧
    (turning [.host (writeAt page3 0x00C 0x4C000001#32), .engine]).pend = none ∧
    (turning [.host (writeAt page3 0x00C 0x4C000001#32), .engine]).turns
      = [.host (writeAt page3 0x00C (encode (.lcall 0 1#16))), .engine] ∧
    (Instr.lcall 0 1#16).mnemonic ≠ "LDRAW" ∧ (Instr.lcall 0 1#16).mnemonic ≠ "LOCK" ∧
    (Instr.lcall 0 1#16).mnemonic ≠ "UNLOCK" := by decide

theorem witness_WindowWriteReadsBack :
    (turning [.host (writeAt page3 0x040 1#32), .host (readAt page3 0x0EC)]).pend = none ∧
    0x040 ≤ 0x0EC ∧ 0x0EC < 0x0F0 ∧ 0x0EC % 4 = 0 ∧ 0x040 % 4 = 0 ∧
    (turning [.host (writeAt page3 0x040 1#32), .host (readAt page3 0x0EC)]).turns
      = .host (writeAt page3 0x040 1#32) :: .host (readAt page3 0x0EC) :: [] := by decide

/-- The word read is the word written, at the last word of the windows. -/
theorem witness_WindowWriteReadsBack_same_word :
    (turning [.host (writeAt page3 0x0EC 1#32), .host (readAt page3 0x0EC)]).pend = none ∧
    0x040 ≤ 0x0EC ∧ 0x0EC < 0x0F0 ∧ 0x0EC % 4 = 0 ∧
    (turning [.host (writeAt page3 0x0EC 1#32), .host (readAt page3 0x0EC)]).turns
      = .host (writeAt page3 0x0EC 1#32) :: .host (readAt page3 0x0EC) :: [] := by decide

theorem witness_WindowReadsAreLittleEndian :
    (turning [.host (readAt page3 0x0BC)]).pend = none ∧
    (turning [.host (readAt page3 0x0BC)]).turns
      = .host (readAt page3 (0x040 + 16 * (7 : Fin 8).val + 4 * (3 : Fin 4).val)) :: [] ∧
    (turning [.host (readAt page3 0x0DC)]).turns = .host (readAt page3 (0x0C0 + 4 * (7 : Fin 8).val)) :: [] ∧
    (turning [.host (readAt page3 0x0EC)]).turns = .host (readAt page3 (0x0E0 + 4 * (3 : Fin 4).val)) :: [] := by
  decide

theorem witness_RegisterReadsAreExact :
    (running [.host (readAt page3 0x000)]).turns = .host (readAt page3 0x000) :: [] ∧
    (running [.host (readAt page3 0x004)]).turns = .host (readAt page3 0x004) :: [] ∧
    (running [.host (readAt page3 0x008)]).turns = .host (readAt page3 0x008) :: [] ∧
    (running [.host (readAt page3 0x00C)]).turns = .host (readAt page3 0x00C) :: [] ∧
    ((turning [.host (readAt page3 0x010)]).turns = .host (readAt page3 0x010) :: [] ∧
      (turning [.host (readAt page3 0x010)]).pend = none) ∧
    (running [.host (readAt page3 0x014)]).turns = .host (readAt page3 0x014) :: [] := by decide

theorem witness_ReservedBitsReadZeroAndIgnoreWrites :
    2 ≤ 2 ∧ (4 ≤ 4 ∧ 4 ≤ 7) ∧ (4 ≤ 7 ∧ 7 ≤ 7) ∧ 16 ≤ 31 ∧
    0xFFFFFFFE#32 &&& 0x00000003#32 = 0x00000002#32 &&& 0x00000003#32 ∧
    0xFFFF00FA#32 &&& 0x0000FF0F#32 = 0x0000000A#32 &&& 0x0000FF0F#32 := by decide

theorem witness_StatusWriteClearsDoneAndErr :
    (running [.host (writeAt page3 0x008 0xA#32)]).turns = .host (writeAt page3 0x008 0xA#32) :: [] := by decide

theorem witness_CtrlWriteSetsInterruptEnable :
    (running [.host (writeAt page3 0x004 2#32)]).turns = .host (writeAt page3 0x004 2#32) :: [] ∧
    (2#32).getLsbD 0 = false := by decide

/-- A busy state with interrupts enabled, holding NOP's word. -/
def enabledBusy (ts : List Turn) : State := writeCtrl 2#32 (acceptCommand 0#32 (turning ts))

theorem witness_InterruptLineRisesAndFalls :
    (turning []).ie = false ∧
    ((∃ t, exec .nop (enabledBusy []) = .next t ∧ t.pend = none) ∧ (enabledBusy []).ie = true ∧
      (enabledBusy []).pend ≠ none) ∧
    ((enabledBusy [.host (readAt page3 0x100)]).turns = .host (readAt page3 0x100) :: [] ∧
      (readAt page3 0x100).addr = page3.base + 0x100 ∧
      (raisedError true .bits32 .read 0x100).isSome = true ∧
      ∃ t, step (enabledBusy [.host (readAt page3 0x100)]) = .next t) ∧
    ((enabledBusy [.host (writeAt page3 0x008 0xA#32)]).turns = .host (writeAt page3 0x008 0xA#32) :: [] ∧
      (0xA#32).getLsbD 1 = true ∧ (0xA#32).getLsbD 3 = true ∧
      ∃ t, step (enabledBusy [.host (writeAt page3 0x008 0xA#32)]) = .next t) ∧
    (Instr.nop.wellFormed = true ∧ (turning [.host (writeAt page3 0x00C 0#32)]).pend = none ∧
      (turning [.host (writeAt page3 0x00C 0#32)]).err = false ∧
      (turning [.host (writeAt page3 0x00C 0#32)]).turns = .host (writeAt page3 0x00C (encode .nop)) :: [] ∧
      ∃ t, step (turning [.host (writeAt page3 0x00C 0#32)]) = .next t) :=
  by
  refine ⟨rfl, ⟨⟨complete (enabledBusy []), rfl, rfl⟩, rfl, by decide⟩, ⟨rfl, rfl, by decide, ?_⟩,
    ⟨rfl, by decide, by decide, ?_⟩, ⟨rfl, rfl, rfl, by decide, ?_⟩⟩
  all_goals exact next_of_isSome (by decide +kernel)

theorem witness_AccessesDoNotDisturbARunningCommand :
    (running [.host (writeAt page3 0x004 2#32)]).pend ≠ none ∧
    inWindow page3 (.host (writeAt page3 0x004 2#32)) ∧ ¬ isResetTurn page3 (.host (writeAt page3 0x004 2#32)) := by
  refine ⟨by decide, by decide, ?_⟩
  rintro ⟨-, -, v, hv, hb⟩
  cases hv
  exact absurd hb (by decide)

theorem witness_BusyAccessesRevealNoData :
    (running [.host (readAt page3 0x040)]).pend ≠ none ∧
    (running [.host (readAt page3 0x040)]).turns = .host (readAt page3 0x040) :: [] ∧
    inWindow page3 (.host (readAt page3 0x040)) := by decide

/-- SINV of 3 changes NI to false from true, and is a next state. -/
theorem witness_OnlyFourCommandsWriteNi :
    ∃ t, exec (.sinv 0 0) (setNi false State.reset) = .next t ∧ t.ni ≠ (setNi false State.reset).ni :=
  ⟨_, rfl, by decide +kernel⟩

theorem witness_OnlyGeneratorCommandsMoveTheGenerator :
    ∃ t, exec (.lcall 0 1#16) State.reset = .next t ∧ t.callcnt ≠ State.reset.callcnt ∧ t.l ≠ State.reset.l :=
  ⟨_, rfl, by decide +kernel, by decide +kernel⟩

theorem witness_HostAccessesLeaveCallCount :
    (turning [.host (readAt page3 0x010)]).turns = .host (readAt page3 0x010) :: [] ∧
    ¬ isResetTurn page3 (.host (readAt page3 0x010)) ∧
    ∃ t, step (turning [.host (readAt page3 0x010)]) = .next t := by
  refine ⟨rfl, ?_, _, rfl⟩
  rintro ⟨-, -, v, hv, -⟩
  cases hv

/-- Both clauses of ScalarInverseIsUnique, at the least and the greatest byte of each parity. -/
theorem witness_ScalarInverseIsUnique :
    (1#8).toNat % 2 = 1 ∧ (255#8).toNat % 2 = 1 ∧ (0#8).toNat % 2 = 0 ∧ (254#8).toNat % 2 = 0 ∧
    (1#8).toNat * 1 % 256 = 1 ∧ (255#8).toNat * 255 % 256 = 1 := by decide

theorem witness_SinvWritesTheInverse :
    (writeX 1 0xFFFFFFFF#32 State.reset).x[1].toNat % 2 = 1 ∧ State.reset.x[1].toNat % 2 = 0 := by decide

theorem witness_Inv3WritesTheInverseOrSetsNi :
    (ringMatrix (wideOfBytes kMinus3)).det % 2 = 1 ∧ (ringMatrix (wideOfBytes k9)).det % 2 = 0 := by
  rw [Matrix.det_fin_three, Matrix.det_fin_three]; decide +kernel

theorem witness_MatrixInverseRoundTrip :
    (∃ B, invertMod (m3Of (wideOfBytes kMinus3)) = some B) ∧ (2 : WReg) ≠ 1 := by
  exact ⟨Option.isSome_iff_exists.mp (by decide +kernel), by decide⟩

/-- A state whose W1 holds a matrix and whose W2 holds its inverse, with W0 as the first destination: the
first key may be W2 or W1, which are the two orders of MatrixInverseRoundTrip. -/
theorem witness_MatrixInverseRoundTrip_loaded :
    ∃ A B : M3, invertMod A = some B ∧ ∃ s : State, (0 : WReg) ≠ 1 ∧ (0 : WReg) ≠ 2 ∧
      m3Of s.w[(2 : WReg)] = B ∧ m3Of s.w[(1 : WReg)] = A := by
  obtain ⟨B, hB⟩ := witness_MatrixInverseRoundTrip.1
  refine ⟨_, B, hB, writeW 2 (wideOfM3 B) (withW 1 kMinus3 State.reset), by decide, by decide, ?_, ?_⟩
  · funext i j
    fin_cases i <;> fin_cases j <;> simp [m3Of, writeW, wideOfM3, byteOf_wideOfBytes]
  · simp [writeW, withW]

theorem witness_GinvWritesTheInverseOrSetsNi :
    (∃ B, gf2Matrix (wideOfBytes [0x80, 0x40, 0x20, 0x10, 0x08, 0x04, 0x02, 0x01]) * B = 1) ∧
    ¬ ∃ B, gf2Matrix 0#128 * B = 1 := by
  constructor
  · exact ⟨1, by rw [mul_one]; decide +kernel⟩
  · rintro ⟨B, hB⟩
    have h0 : gf2Matrix 0#128 = 0 := by ext i j; simp [gf2Matrix, byteOf]
    rw [h0, zero_mul] at hB
    exact zero_ne_one hB

theorem witness_GisinvTestsInvertibility :
    (∃ B, gf2Matrix (wideOfBytes [0x80, 0x40, 0x20, 0x10, 0x08, 0x04, 0x02, 0x01]) * B = 1) ∧
    ¬ ∃ B, gf2Matrix 0#128 * B = 1 := witness_GinvWritesTheInverseOrSetsNi

theorem witness_GaussJordanInvertsExactlyFullRank : ∃ B, invertGf2 (b8Of (wideOfBytes upper)) = some B :=
  Option.isSome_iff_exists.mp (by decide +kernel)

theorem witness_LcallMakesTheCountedCalls : 1#16 ≠ 0#16 ∧ 65535#16 ≠ 0#16 := by decide

theorem witness_LcallIsRepeatedSingleCalls : 1#16 ≠ 0#16 ∧ 65535#16 ≠ 0#16 := by decide

/-- A draw that ends with its first call: mask 0xD1 from the seed. -/
theorem drawsTo_seed :
    drawsTo .frontToBack encoderSeed 0xD1#8 (callsL .frontToBack 1 encoderSeed) 1 :=
  ⟨le_rfl, fun j h1 h2 => absurd h1 (by omega), by decide +kernel, rfl, by decide +kernel⟩

/-- A zero register stays zero. -/
theorem callsL_zero (chain : LfsrChain) (n : Nat) : callsL chain n 0#128 = 0#128 := by
  induction n with
  | zero => rfl
  | succ n ih =>
    have h : callL chain 0#128 = 0#128 := by cases chain <;> decide +kernel
    rw [callsL, h, ih]

/-- No draw from a zero register ends. -/
theorem drawNeverEnds_zero (chain : LfsrChain) : drawNeverEnds chain 0#128 := by
  intro j _
  rw [callOdd, callsL_zero]
  decide

/-- The three draws of a block from the seed: masks 209, 11, 95 in 1, 2 and 2 calls (section 6). -/
theorem blockDrawsTo_seed :
    blockDrawsTo .frontToBack encoderSeed ![209, 11, 95] (callsL .frontToBack 5 encoderSeed) 5 := by
  refine ⟨callsL .frontToBack 1 encoderSeed, callsL .frontToBack 3 encoderSeed, 1, 2, 2, ?_, ?_, ?_, by omega,
    by omega, by omega, rfl⟩
  · exact ⟨le_rfl, fun j h1 h2 => absurd h1 (by omega), by decide +kernel, rfl, by decide +kernel⟩
  · refine ⟨by omega, fun j h1 h2 => ?_, by decide +kernel, ?_, by decide +kernel⟩
    · obtain rfl : j = 1 := by omega
      decide +kernel
    · exact callsL_add .frontToBack 1 2 encoderSeed
  · refine ⟨by omega, fun j h1 h2 => ?_, by decide +kernel, ?_, by decide +kernel⟩
    · obtain rfl : j = 1 := by omega
      decide +kernel
    · exact callsL_add .frontToBack 3 2 encoderSeed

theorem witness_DrawIsDecidedByOneHundredTwentyEightCalls :
    (∀ j, 1 ≤ j → j ≤ 128 → callOdd .backToFront 0#128 j = false) ∧
    drawsTo .frontToBack encoderSeed 0xD1#8 (callsL .frontToBack 1 encoderSeed) 1 :=
  ⟨fun j h _ => drawNeverEnds_zero .backToFront j h, drawsTo_seed⟩

theorem witness_FrontToBackDrawsEndWithinEightCalls :
    byteOf encoderSeed 0 ≠ 0#8 ∧ byteOf (wideOfBytes [0, 255]) 0 = 0#8 := by decide

theorem witness_LdrawWritesAnOddMask :
    drawsTo State.reset.params.chain State.reset.l 0xD1#8 (callsL .frontToBack 1 encoderSeed) 1 ∧ 1 ≤ 128 :=
  ⟨drawsTo_seed, by omega⟩

/-- LDRAW and LOCK from L = 0, and LOCK whose second draw has no end. -/
theorem witness_EndlessDrawsLeaveTheCommandBusy :
    neverCompletes .frontToBack 0#128 (.ldraw 0) ∧ neverCompletes .backToFront 0#128 (.lock 2 1 0) ∧
    neverCompletes .frontToBack 0#128 (.unlock 2 1 0) :=
  ⟨drawNeverEnds_zero _, .inl (drawNeverEnds_zero _), .inl (drawNeverEnds_zero _)⟩

theorem witness_OnlyAResetEndsAHungCommand :
    hung (setL 0#128 (running [.host (readAt page3 0x008)])) ∧
    (∀ turn ts, (setL 0#128 (running [.host (readAt page3 0x008)])).turns = turn :: ts →
      inWindow page3 turn ∧ ¬ isResetTurn page3 turn) := by
  refine ⟨⟨0x50000000#32, .ldraw 0, rfl, by decide, drawNeverEnds_zero _⟩, fun turn ts h => ?_⟩
  cases h
  refine ⟨by decide, ?_⟩
  rintro ⟨-, -, v, hv, -⟩
  cases hv

theorem witness_LockWritesTheMaskedProduct :
    blockDrawsTo State.reset.params.chain State.reset.l ![209, 11, 95] (callsL .frontToBack 5 encoderSeed) 5 :=
  blockDrawsTo_seed

theorem witness_UnlockWritesTheUnmaskedProduct :
    blockDrawsTo State.reset.params.chain State.reset.l ![209, 11, 95] (callsL .frontToBack 5 encoderSeed) 5 :=
  blockDrawsTo_seed

theorem witness_LockAndUnlockStayInLockStep :
    (running []).params.chain = (running []).params.chain ∧ (running []).l = (running []).l ∧
    (running []).callcnt = (running []).callcnt ∧ (running []).pend.isSome = true := ⟨rfl, rfl, rfl, rfl⟩

theorem witness_UnlockOfLockFormula :
    (2 : WReg) ≠ 1 ∧
    blockDrawsTo State.reset.params.chain State.reset.l ![209, 11, 95] (callsL .frontToBack 5 encoderSeed) 5 ∧
    ringMatrixMod (wideOfBytes [1, 0, 0, 0, 1, 0, 0, 0, 1]) = 1 :=
  ⟨by decide, blockDrawsTo_seed, by decide +kernel⟩

end Sys2Proof.Tests
end

namespace Sys2Proof.Machine

/-! ## What a command's execution can do -/

/-- `u` is what a command makes of `s` before its completion (R49): the control fields, the latch and
DONE are still those of `s`; only the data, the generator and NI may differ. -/
def commandResult (s u : State) : Prop := sameControl s u ∧ u.pend = s.pend ∧ u.done = s.done

@[simp] theorem commandResult_refl (s : State) : commandResult s s := by
  simp [commandResult, sameControl]

@[simp] theorem commandResult_writeW (i : WReg) (v : Wide) (s u : State) :
    commandResult s (writeW i v u) ↔ commandResult s u := Iff.rfl

@[simp] theorem commandResult_writeX (i : XReg) (v : Word) (s u : State) :
    commandResult s (writeX i v u) ↔ commandResult s u := Iff.rfl

@[simp] theorem commandResult_setL (v : Wide) (s u : State) :
    commandResult s (setL v u) ↔ commandResult s u := Iff.rfl

@[simp] theorem commandResult_advanceL (v : Wide) (n : Nat) (s u : State) :
    commandResult s (advanceL v n u) ↔ commandResult s u := Iff.rfl

@[simp] theorem commandResult_setNi (b : Bool) (s u : State) :
    commandResult s (setNi b u) ↔ commandResult s u := Iff.rfl

/-- The outcome is a result of `s` that then either completes or, where a draw never ends (R186;
log 7), does not. -/
def completesOrHangs (s : State) (o : Host.Outcome State Fault Refusal) : Prop :=
  ∃ u, commandResult s u ∧ (o = .next (complete u) ∨ o = .next u)

theorem completesOrHangs_of_complete {s u : State} (h : commandResult s u) :
    completesOrHangs s (.next (complete u)) := ⟨u, h, .inl rfl⟩

theorem completesOrHangs_of_hang {s u : State} (h : commandResult s u) :
    completesOrHangs s (.next u) := ⟨u, h, .inr rfl⟩

theorem execInv3_completesOrHangs (d src : WReg) (s : State) : completesOrHangs s (execInv3 d src s) := by
  obtain ⟨-, h⟩ | ⟨R, -, h⟩ := execInv3_cases d src s
  · rw [h]; exact completesOrHangs_of_complete (by simp)
  · rw [h]; exact completesOrHangs_of_complete (by simp)

theorem execGinv_completesOrHangs (d src : WReg) (s : State) : completesOrHangs s (execGinv d src s) := by
  obtain ⟨-, h⟩ | ⟨R, -, h⟩ := execGinv_cases d src s
  · rw [h]; exact completesOrHangs_of_complete (by simp)
  · rw [h]; exact completesOrHangs_of_complete (by simp)

theorem execLdraw_completesOrHangs (d : XReg) (s : State) : completesOrHangs s (execLdraw d s) := by
  obtain ⟨m, v, n, -, h⟩ | ⟨v, n, -, h⟩ := execLdraw_cases d s
  · rw [h]; exact completesOrHangs_of_complete (by simp)
  · rw [h]; exact completesOrHangs_of_hang (by simp)

theorem maskedTransform_completesOrHangs (factor : Masks → Masks) (d k b : WReg) (s : State) :
    completesOrHangs s (maskedTransform factor d k b s) := by
  obtain ⟨m, v, n, -, h⟩ | ⟨v, n, -, h⟩ := maskedTransform_cases factor d k b s
  · rw [h]; exact completesOrHangs_of_complete (by simp)
  · rw [h]; exact completesOrHangs_of_hang (by simp)

/-- Every command goes on from every state, and its last act is the completion, unless it hangs. -/
theorem exec_completesOrHangs (i : Instr) (s : State) : completesOrHangs s (exec i s) := by
  cases i with
  | nop => exact completesOrHangs_of_complete (by simp)
  | sinv d src => exact completesOrHangs_of_complete (by simp)
  | det3 d src => exact completesOrHangs_of_complete (by simp)
  | adj3 d src => exact completesOrHangs_of_complete (by simp)
  | inv3 d src => exact execInv3_completesOrHangs d src s
  | mvm3 d k v => exact completesOrHangs_of_complete (by simp)
  | gmm d a b => exact completesOrHangs_of_complete (by simp)
  | gmv d a v => exact completesOrHangs_of_complete (by simp)
  | ginv d src => exact execGinv_completesOrHangs d src s
  | gisinv d src => exact completesOrHangs_of_complete (by simp)
  | lseed => exact completesOrHangs_of_complete (by simp)
  | lload src => exact completesOrHangs_of_complete (by simp)
  | lstore d => exact completesOrHangs_of_complete (by simp)
  | lcall d n => exact completesOrHangs_of_complete (by simp)
  | ldraw d => exact execLdraw_completesOrHangs d s
  | lock d k b => exact maskedTransform_completesOrHangs (fun m => m) d k b s
  | unlock d k b => exact maskedTransform_completesOrHangs invMasks d k b s

theorem exec_next_sameControl {i : Instr} {s t : State} (h : exec i s = .next t) : sameControl s t := by
  obtain ⟨u, ⟨hctrl, -, -⟩, he | he⟩ := exec_completesOrHangs i s
  · obtain rfl : complete u = t := Host.Outcome.next.inj (he.symm.trans h)
    exact hctrl
  · obtain rfl : u = t := Host.Outcome.next.inj (he.symm.trans h)
    exact hctrl

/-! ## Host accesses keep the parameters -/

@[simp] theorem writeStatus_params (v : Word) (s : State) : (writeStatus v s).params = s.params := by
  simp [writeStatus_eq]

@[simp] theorem writeCtrl_params (v : Word) (s : State) : (writeCtrl v s).params = s.params := by
  obtain ⟨-, h⟩ | ⟨-, h⟩ := writeCtrl_cases v s
  · simp [h]
  · simp [h]

@[simp] theorem issueCommand_params (c : Word) (s : State) : (issueCommand c s).params = s.params := by
  obtain ⟨-, h⟩ | ⟨-, -, h⟩ | ⟨-, -, h⟩ | ⟨-, _, -, h⟩ := issueCommand_cases c s
  · simp [h]
  · simp [h]
  · simp [h]
  · simp [h]

theorem writeWindow_params (off : BitVec 12) {store s : State} (hs : store.params = s.params) :
    (writeWindow off store s).params = s.params := by
  obtain ⟨-, h⟩ | ⟨-, h⟩ := writeWindow_cases off store s
  · simp [h]
  · rw [h, hs]

@[simp] theorem writeTarget_params (t : Target) (off : BitVec 12) (v : Word) (s : State) :
    (writeTarget t off v s).params = s.params := by
  cases t with
  | id => exact recordError_params ..
  | ctrl => exact writeCtrl_params ..
  | status => exact writeStatus_params ..
  | cmd => exact issueCommand_params ..
  | callcnt => exact recordError_params ..
  | errinfo => exact recordError_params ..
  | wWindow i k => exact writeWindow_params off (writeW_params ..)
  | xWindow i => exact writeWindow_params off (writeX_params ..)
  | lWindow k => exact writeWindow_params off (setL_params ..)

@[simp] theorem readTarget_params (t : Target) (s : State) : (readTarget t s).params = s.params := by
  obtain ⟨-, -, h⟩ | ⟨-, h⟩ := readTarget_cases t s
  · simp [h]
  · simp [h]

@[simp] theorem hostRead_params (width : AccessWidth) (off : BitVec 12) (s : State) :
    (hostRead width off s).params = s.params := by
  obtain ⟨-, h⟩ | ⟨-, -, h⟩ | ⟨-, t, -, h⟩ := hostRead_cases width off s
  · simp [h]
  · simp [h]
  · simp [h]

@[simp] theorem hostWrite_params (width : AccessWidth) (off : BitVec 12) (v : Word) (s : State) :
    (hostWrite width off v s).params = s.params := by
  obtain ⟨-, h⟩ | ⟨-, -, h⟩ | ⟨-, t, -, h⟩ := hostWrite_cases width off v s
  · simp [h]
  · simp [h]
  · simp [h]

@[simp] theorem windowAccess_params (a : Access) (off : BitVec 12) (s : State) :
    (windowAccess a off s).params = s.params := by
  unfold windowAccess
  cases a.kind with
  | read => exact hostRead_params ..
  | write v => exact hostWrite_params ..

/-! ## Every turn keeps the parameters -/

theorem engineTurn_next_params {s t : State} (h : engineTurn s = .next t) : t.params = s.params := by
  obtain ⟨-, he⟩ | ⟨c, i, -, -, he⟩ | ⟨c, -, -, he⟩ := engineTurn_cases s
  · obtain rfl : s = t := Host.Outcome.next.inj (he.symm.trans h)
    rfl
  · obtain ⟨hparams, -⟩ := exec_next_sameControl (he.symm.trans h)
    exact hparams
  · cases he.symm.trans h

theorem hostAccess_next_params {a : Access} {s t : State} (h : hostAccess a s = .next t) :
    t.params = s.params := by
  obtain ⟨-, he⟩ | ⟨-, he⟩ := hostAccess_cases a s
  · obtain rfl : windowAccess a (BitVec.ofNat 12 a.addr) s = t := Host.Outcome.next.inj (he.symm.trans h)
    exact windowAccess_params ..
  · cases he.symm.trans h

/-- Settles O5: the turn is the engine's, the host's or the reset input's, and each keeps the parameters. -/
theorem parametersNeverChange : Obligations.ParametersNeverChange := by
  intro s t h
  obtain ⟨-, he⟩ | ⟨ts, -, he⟩ | ⟨a, ts, -, he⟩ | ⟨ts, -, he⟩ := step_cases s
  · exact engineTurn_next_params (he.symm.trans h)
  · exact engineTurn_next_params (s := setTurns ts s) (he.symm.trans h)
  · exact hostAccess_next_params (s := setTurns ts s) (he.symm.trans h)
  · obtain rfl : resetState (setTurns ts s) = t := Host.Outcome.next.inj (he.symm.trans h)
    simp

end Sys2Proof.Machine

namespace Sys2Proof

/-! ## Decoding an encoded command -/

/-- An encoded word that uses RD, RS1 and RS2 has no bit in its unused fields (R104). -/
theorem commandWord_unusedThree (opc : BitVec 6) (rd rs1 rs2 : Fin 8) :
    commandWord opc rd rs1 rs2 0#16 &&& unusedThree = 0#32 := by
  have hmask : unusedThree = 0xFC01FFFF#32 &&& unusedThree := by decide
  rw [hmask, ← BitVec.and_assoc, commandWord_maskThree]
  revert opc; decide

theorem commandWord_unusedTwo (opc : BitVec 6) (rd rs1 : Fin 8) :
    commandWord opc rd rs1 0 0#16 &&& unusedTwo = 0#32 := by
  have hmask : unusedTwo = 0xFC0FFFFF#32 &&& unusedTwo := by decide
  rw [hmask, ← BitVec.and_assoc, commandWord_maskTwo]
  revert opc; decide

theorem commandWord_unusedRdOnly (opc : BitVec 6) (rd : Fin 8) :
    commandWord opc rd 0 0 0#16 &&& unusedRdOnly = 0#32 := by
  have hmask : unusedRdOnly = 0xFC7FFFFF#32 &&& unusedRdOnly := by decide
  rw [hmask, ← BitVec.and_assoc, commandWord_maskRdOnly]
  revert opc; decide

theorem commandWord_unusedRs1Only (opc : BitVec 6) (rs1 : Fin 8) :
    commandWord opc 0 rs1 0 0#16 &&& unusedRs1Only = 0#32 := by
  have hmask : unusedRs1Only = 0xFF8FFFFF#32 &&& unusedRs1Only := by decide
  rw [hmask, ← BitVec.and_assoc, commandWord_maskRs1Only]
  revert opc; decide

theorem commandWord_unusedLcall (opc : BitVec 6) (rd : Fin 8) (imm : BitVec 16) :
    commandWord opc rd 0 0 imm &&& unusedLcall = 0#32 := by
  have hmask : unusedLcall = 0xFC7F0000#32 &&& unusedLcall := by decide
  rw [hmask, ← BitVec.and_assoc, commandWord_maskLcall]
  revert opc; decide

/-- The decoder reads back the fields that the encoder wrote, and finds the unused ones 0 (R102 to R105). -/
theorem decode_encode (i : Instr) (hi : i.wellFormed = true) : decode (encode i) = .command i := by
  cases i with
  | nop => decide
  | lseed => decide
  | lcall d n =>
    have hn : n ≠ 0#16 := by simpa [Instr.wellFormed] using hi
    simp [encode, decode, decodeOperands, fieldOpc_commandWord, fieldRd_commandWord, fieldImm_commandWord,
      commandWord_unusedLcall, hn]
  | lload src =>
    simp [encode, decode, decodeOperands, fieldOpc_commandWord, fieldRs1_commandWord,
      commandWord_unusedRs1Only]
  | lstore d =>
    simp [encode, decode, decodeOperands, fieldOpc_commandWord, fieldRd_commandWord, commandWord_unusedRdOnly]
  | ldraw d =>
    simp [encode, decode, decodeOperands, fieldOpc_commandWord, fieldRd_commandWord, commandWord_unusedRdOnly]
  | sinv d src | det3 d src | adj3 d src | inv3 d src | ginv d src | gisinv d src =>
    simp [encode, decode, decodeOperands, fieldOpc_commandWord, fieldRd_commandWord, fieldRs1_commandWord,
      commandWord_unusedTwo]
  | mvm3 d a b | gmm d a b | gmv d a b | lock d a b | unlock d a b =>
    simp [encode, decode, decodeOperands, fieldOpc_commandWord, fieldRd_commandWord, fieldRs1_commandWord,
      fieldRs2_commandWord, commandWord_unusedThree]

/-! ## Words and rows of the opcode table -/

/-- The bits of R105's match column: OPC, with every other field 0. -/
theorem and_opcMask (c : Word) : c &&& 0xFC000000#32 = fieldOpc c ++ 0#26 := by
  apply BitVec.eq_of_getLsbD_eq
  intro i hi
  rw [fieldOpc, BitVec.getLsbD_append, BitVec.getLsbD_and, BitVec.getLsbD_extractLsb']
  interval_cases i <;> simp

theorem fieldOpc_toNat (c : Word) : (fieldOpc c).toNat = c.toNat / 2 ^ 26 := by
  have := c.isLt
  rw [fieldOpc, BitVec.extractLsb'_toNat, Nat.shiftRight_eq_div_pow]
  omega

/-- The fields a row's command does not use: its mask without OPC (R104). -/
def OpcodeRow.unused (row : OpcodeRow) : Word := row.mask &&& 0x03FFFFFF#32

/-- The opcode a row's match names. -/
def OpcodeRow.opc (row : OpcodeRow) : BitVec 6 := fieldOpc row.pattern

/-- Every row masks all of OPC, and its match has no bit outside OPC. -/
theorem opcodeTable_shape : ∀ row ∈ opcodeTable,
    row.mask = 0xFC000000#32 ||| row.unused ∧ row.pattern = row.opc ++ 0#26 ∧
      row.mask &&& row.unused = row.unused ∧ row.pattern &&& row.unused = 0#32 := by decide

theorem fieldOpc_append_zero (o : BitVec 6) : fieldOpc (o ++ 0#26) = o := by
  apply BitVec.eq_of_getLsbD_eq
  intro i hi
  rw [fieldOpc, BitVec.getLsbD_extractLsb', BitVec.getLsbD_append]
  simp [hi]

/-- A word fits a row's match and mask when it has the row's opcode and 0 in the unused fields. -/
theorem and_mask_eq_pattern_iff {row : OpcodeRow} (hrow : row ∈ opcodeTable) (c : Word) :
    c &&& row.mask = row.pattern ↔ fieldOpc c = row.opc ∧ c &&& row.unused = 0#32 := by
  obtain ⟨hmask, hpattern, hunused⟩ := opcodeTable_shape row hrow
  have hsplit : c &&& row.mask = (fieldOpc c ++ 0#26) ||| (c &&& row.unused) := by
    rw [hmask, BitVec.and_or_distrib_left, and_opcMask]
  constructor
  · intro hfit
    have hu : c &&& row.unused = 0#32 := by
      rw [← hunused.1, ← BitVec.and_assoc, hfit, hunused.2]
    rw [hsplit, hu, BitVec.or_zero, hpattern] at hfit
    exact ⟨by rw [← fieldOpc_append_zero (fieldOpc c), hfit, fieldOpc_append_zero], hu⟩
  · rintro ⟨ho, hu⟩
    rw [hsplit, ho, hu, hpattern, BitVec.or_zero]

/-- A word with a row's opcode decodes to that row's command, its unused fields being checked (R104),
and LCALL's count (R101). -/
theorem decode_of_opc {row : OpcodeRow} (hrow : row ∈ opcodeTable) {c : Word} (hc : fieldOpc c = row.opc) :
    ∃ i : Instr, i.mnemonic = row.mnemonic ∧ decode c =
      if row.mnemonic = "LCALL" ∧ fieldImm c = 0#16 then .illegalOperand
      else decodeOperands c row.unused i := by
  simp only [opcodeTable, List.mem_cons, List.not_mem_nil, or_false] at hrow
  rcases hrow with rfl | rfl | rfl | rfl | rfl | rfl | rfl | rfl | rfl | rfl | rfl | rfl | rfl | rfl | rfl | rfl | rfl
  · exact ⟨.nop, rfl, by rw [decode, hc]; rfl⟩
  · exact ⟨.sinv (fieldRd c) (fieldRs1 c), rfl, by rw [decode, hc]; rfl⟩
  · exact ⟨.det3 (fieldRd c) (fieldRs1 c), rfl, by rw [decode, hc]; rfl⟩
  · exact ⟨.adj3 (fieldRd c) (fieldRs1 c), rfl, by rw [decode, hc]; rfl⟩
  · exact ⟨.inv3 (fieldRd c) (fieldRs1 c), rfl, by rw [decode, hc]; rfl⟩
  · exact ⟨.mvm3 (fieldRd c) (fieldRs1 c) (fieldRs2 c), rfl, by rw [decode, hc]; rfl⟩
  · exact ⟨.gmm (fieldRd c) (fieldRs1 c) (fieldRs2 c), rfl, by rw [decode, hc]; rfl⟩
  · exact ⟨.gmv (fieldRd c) (fieldRs1 c) (fieldRs2 c), rfl, by rw [decode, hc]; rfl⟩
  · exact ⟨.ginv (fieldRd c) (fieldRs1 c), rfl, by rw [decode, hc]; rfl⟩
  · exact ⟨.gisinv (fieldRd c) (fieldRs1 c), rfl, by rw [decode, hc]; rfl⟩
  · exact ⟨.lseed, rfl, by rw [decode, hc]; rfl⟩
  · exact ⟨.lload (fieldRs1 c), rfl, by rw [decode, hc]; rfl⟩
  · exact ⟨.lstore (fieldRd c), rfl, by rw [decode, hc]; rfl⟩
  · exact ⟨.lcall (fieldRd c) (fieldImm c), rfl, by rw [decode, hc]; simp only [true_and]; rfl⟩
  · exact ⟨.ldraw (fieldRd c), rfl, by rw [decode, hc]; rfl⟩
  · exact ⟨.lock (fieldRd c) (fieldRs1 c) (fieldRs2 c), rfl, by rw [decode, hc]; rfl⟩
  · exact ⟨.unlock (fieldRd c) (fieldRs1 c) (fieldRs2 c), rfl, by rw [decode, hc]; rfl⟩

end Sys2Proof

namespace Sys2Proof.Machine

/-- R105's table has a row for each opcode that R106 does not reserve. -/
theorem exists_row_of_not_reserved : ∀ o : BitVec 6, reservedOpcode o.toNat = false →
    ∃ row ∈ opcodeTable, o = row.opc := by decide

theorem opcodeTable_opc_injective : ∀ row ∈ opcodeTable, ∀ row' ∈ opcodeTable,
    row.opc = row'.opc → row = row' := by decide

theorem decode_of_reserved {c : Word} (hc : reservedOpcode (fieldOpc c).toNat = true) :
    decode c = .illegalOpcode := by
  unfold decode
  split
  on_goal 18 => rfl
  all_goals
    rename_i hopc
    rw [hopc] at hc
    exact absurd hc (by decide)

/-- A word with a row's opcode is that row's command or has an illegal operand, as its match and mask
say (R104, R105). -/
theorem decode_of_row {row : OpcodeRow} (hrow : row ∈ opcodeTable) {c : Word} (hc : fieldOpc c = row.opc) :
    (matchesRow c row ∧ ∃ i, i.mnemonic = row.mnemonic ∧ decode c = .command i) ∨
    (¬ matchesRow c row ∧ decode c = .illegalOperand) := by
  obtain ⟨i, hi, hd⟩ := decode_of_opc hrow hc
  by_cases hcount : row.mnemonic = "LCALL" ∧ fieldImm c = 0#16
  · rw [if_pos hcount] at hd
    exact .inr ⟨fun ⟨_, hn⟩ => hn hcount.1 hcount.2, hd⟩
  · rw [if_neg hcount, decodeOperands] at hd
    by_cases hu : c &&& row.unused = 0#32
    · rw [if_pos hu] at hd
      exact .inl ⟨⟨(and_mask_eq_pattern_iff hrow c).2 ⟨hc, hu⟩, fun hl hn => hcount ⟨hl, hn⟩⟩, i, hi, hd⟩
    · rw [if_neg hu] at hd
      exact .inr ⟨fun ⟨hfit, _⟩ => hu ((and_mask_eq_pattern_iff hrow c).1 hfit).2, hd⟩

/-- What the decoder makes of a word, in the terms of R104 to R106: the opcode is reserved, or a row's
match and mask fit, or an operand is illegal. -/
theorem decode_cases (c : Word) :
    (reservedOpcode (c.toNat / 2 ^ 26) = true ∧ decode c = .illegalOpcode) ∨
    (reservedOpcode (c.toNat / 2 ^ 26) = false ∧ ∃ row ∈ opcodeTable, matchesRow c row ∧
      ∃ i, i.mnemonic = row.mnemonic ∧ decode c = .command i) ∨
    (reservedOpcode (c.toNat / 2 ^ 26) = false ∧ (¬ ∃ row ∈ opcodeTable, matchesRow c row) ∧
      decode c = .illegalOperand) := by
  rw [← fieldOpc_toNat]
  cases hr : reservedOpcode (fieldOpc c).toNat with
  | true => exact .inl ⟨rfl, decode_of_reserved hr⟩
  | false =>
    obtain ⟨row, hrow, hc⟩ := exists_row_of_not_reserved _ hr
    obtain ⟨hfit, hd⟩ | ⟨hmisfit, hd⟩ := decode_of_row hrow hc
    · exact .inr (.inl ⟨rfl, row, hrow, hfit, hd⟩)
    · refine .inr (.inr ⟨rfl, ?_, hd⟩)
      rintro ⟨row', hrow', hfit⟩
      have ho := ((and_mask_eq_pattern_iff hrow' c).1 hfit.1).1
      obtain rfl := opcodeTable_opc_injective row hrow row' hrow' (hc.symm.trans ho)
      exact hmisfit hfit

/-! ## Whose turn it is -/

theorem step_no_turn {s : State} (h : s.turns = []) : step s = engineTurn s := by simp [step, h]

theorem step_engine {s : State} {ts : List Turn} (h : s.turns = .engine :: ts) :
    step s = engineTurn (setTurns ts s) := by simp [step, h]

theorem step_host {s : State} {a : Access} {ts : List Turn} (h : s.turns = .host a :: ts) :
    step s = hostAccess a (setTurns ts s) := by simp [step, h]

theorem step_reset {s : State} {ts : List Turn} (h : s.turns = .reset :: ts) :
    step s = .next (resetState (setTurns ts s)) := by simp [step, h]

/-! ## The error table of R241, read as the map of R71 says it -/

/-- The offsets of a word of the window (R71, R72). -/
def Target.atOffset (off : Nat) : Target → Prop
  | .id => off = 0x000
  | .ctrl => off = 0x004
  | .status => off = 0x008
  | .cmd => off = 0x00C
  | .callcnt => off = 0x010
  | .errinfo => off = 0x014
  | .wWindow _ _ => 0x040 ≤ off ∧ off < 0x0F0
  | .xWindow _ => 0x040 ≤ off ∧ off < 0x0F0
  | .lWindow _ => 0x040 ≤ off ∧ off < 0x0F0

theorem atOffset_of_targetAt {off : Nat} {t : Target} (h : targetAt off = some t) : t.atOffset off := by
  unfold targetAt at h
  split_ifs at h
  all_goals
    obtain rfl := Option.some.inj h
    simp only [Target.atOffset]
    omega

/-- The direction of an access, as bit 16 of ERRINFO records it (R241). -/
def AccessKind.isWrite : AccessKind → Bool
  | .read => false
  | .write _ => true

/-- ERRINFO's layout as a number: bit 16 is the direction, the offset stands below it (R241). -/
theorem accessInfo_toNat (isWrite : Bool) (off : BitVec 12) :
    (accessInfo isWrite off).toNat = (0#15 ++ BitVec.ofBool isWrite ++ 0#4).toNat * 2 ^ 12 + off.toNat := by
  have happend : (accessInfo isWrite off).toNat =
      (0#15 ++ BitVec.ofBool isWrite ++ 0#4).toNat <<< 12 ||| off.toNat := BitVec.toNat_append _ _
  rw [happend, ← Nat.shiftLeft_add_eq_or_of_lt off.isLt, Nat.shiftLeft_eq]

theorem accessInfo_read (off : BitVec 12) : accessInfo false off = BitVec.ofNat 32 off.toNat := by
  have hoff := off.isLt
  apply BitVec.eq_of_toNat_eq
  rw [accessInfo_toNat, BitVec.toNat_ofNat]
  simp
  omega

theorem accessInfo_write (off : BitVec 12) :
    accessInfo true off = BitVec.ofNat 32 (0x10000 + off.toNat) := by
  have hoff := off.isLt
  apply BitVec.eq_of_toNat_eq
  rw [accessInfo_toNat, BitVec.toNat_ofNat]
  simp
  omega

theorem badAccess_eq_false_iff (width : AccessWidth) (off : BitVec 12) :
    badAccess width off = false ↔ width = .bits32 ∧ off.toNat % 4 = 0 := by
  simp [badAccess]

theorem badAccess_eq_not_aligned (width : AccessWidth) (off : BitVec 12) :
    badAccess width off = !(width == .bits32 && off.toNat % 4 == 0) := by
  simp [badAccess, bne]

section
variable {width : AccessWidth} {off : BitVec 12} (busy : Bool) (kind : AccessKind)

theorem raisedError_bad (h : badAccess width off = true) :
    raisedError busy width kind off.toNat = some (.badAccess, accessInfo kind.isWrite off) := by
  rw [badAccess_eq_not_aligned] at h
  cases kind with
  | read => simp [raisedError, h, AccessKind.isWrite, accessInfo_read]
  | write v => simp [raisedError, h, AccessKind.isWrite, accessInfo_write]

theorem raisedError_unmapped (h : badAccess width off = false) (ht : targetAt off.toNat = none) :
    raisedError busy width kind off.toNat = some (.unmapped, accessInfo kind.isWrite off) := by
  rw [badAccess_eq_not_aligned] at h
  have hm : (off.toNat < 0x018 || (0x040 ≤ off.toNat && off.toNat < 0x0F0)) = false := by
    obtain ⟨-, hout⟩ | ⟨t, hsome, -⟩ := targetAt_cases off.toNat
    · simp at h ⊢
      omega
    · cases ht.symm.trans hsome
  cases kind with
  | read => simp [raisedError, h, hm, AccessKind.isWrite, accessInfo_read]
  | write v => simp [raisedError, h, hm, AccessKind.isWrite, accessInfo_write]

theorem raisedError_read_mapped {t : Target} (h : badAccess width off = false)
    (ht : targetAt off.toNat = some t) : raisedError busy width .read off.toNat = none := by
  rw [badAccess_eq_not_aligned] at h
  have hm : (off.toNat < 0x018 || (0x040 ≤ off.toNat && off.toNat < 0x0F0)) = true := by
    obtain ⟨hnone, -⟩ | ⟨t, -, hin⟩ := targetAt_cases off.toNat
    · cases ht.symm.trans hnone
    · simpa using hin
  simp [raisedError, h, hm]

end

/-- The error that a 32-bit aligned write of `v` to a mapped word raises, as R241 and R244 list it by
register. -/
def Target.writeError (busy : Bool) (off : BitVec 12) (v : Word) : Target → Option (ECode × Word)
  | .id => some (.roWrite, accessInfo true off)
  | .ctrl => none
  | .status => none
  | .cmd =>
    if busy then some (.busyWrite, v)
    else
      match decode v with
      | .illegalOpcode => some (.illegalOpcode, v)
      | .illegalOperand => some (.illegalOperand, v)
      | .command _ => none
  | .callcnt => some (.roWrite, accessInfo true off)
  | .errinfo => some (.roWrite, accessInfo true off)
  | .wWindow _ _ => if busy then some (.busyWrite, accessInfo true off) else none
  | .xWindow _ => if busy then some (.busyWrite, accessInfo true off) else none
  | .lWindow _ => if busy then some (.busyWrite, accessInfo true off) else none

theorem raisedError_write_readOnly (busy : Bool) (v : Word) {off : BitVec 12}
    (hoff : off.toNat = 0x000 ∨ off.toNat = 0x010 ∨ off.toNat = 0x014) :
    raisedError busy .bits32 (.write v) off.toNat = some (.roWrite, accessInfo true off) := by
  rw [accessInfo_write]
  obtain h | h | h := hoff
  · simp [raisedError, h]
  · simp [raisedError, h]
  · simp [raisedError, h]

theorem raisedError_write_window (busy : Bool) (v : Word) {off : BitVec 12} (halign : off.toNat % 4 = 0)
    (hin : 0x040 ≤ off.toNat ∧ off.toNat < 0x0F0) :
    raisedError busy .bits32 (.write v) off.toNat =
      if busy then some (.busyWrite, accessInfo true off) else none := by
  have hid : off.toNat ≠ 0x000 := by omega
  have hcallcnt : off.toNat ≠ 0x010 := by omega
  have herrinfo : off.toNat ≠ 0x014 := by omega
  have hcmd : off.toNat ≠ 0x00C := by omega
  rw [accessInfo_write]
  cases busy <;> simp [raisedError, halign, hin, hid, hcallcnt, herrinfo, hcmd]

theorem raisedError_write_cmd (busy : Bool) (off : BitVec 12) (v : Word) :
    raisedError busy .bits32 (.write v) 0x00C = Target.writeError busy off v .cmd := by
  cases busy with
  | true => rfl
  | false =>
    obtain ⟨hres, hd⟩ | ⟨hres, row, hrow, hfit, i, -, hd⟩ | ⟨hres, hmisfit, hd⟩ := decode_cases v
    · simpa [raisedError, Target.writeError, hd] using hres
    · have hex : ∃ row ∈ opcodeTable, matchesRow v row := ⟨row, hrow, hfit⟩
      simpa [raisedError, Target.writeError, hd, hex] using hres
    · simpa [raisedError, Target.writeError, hd, hmisfit] using hres

/-- A 32-bit aligned write of a mapped word raises the error of R241 that its register names. -/
theorem raisedError_write_mapped (busy : Bool) (v : Word) {width : AccessWidth} {off : BitVec 12}
    {t : Target} (h : badAccess width off = false) (ht : targetAt off.toNat = some t) :
    raisedError busy width (.write v) off.toNat = t.writeError busy off v := by
  obtain ⟨rfl, halign⟩ := (badAccess_eq_false_iff width off).1 h
  have hoff := atOffset_of_targetAt ht
  cases t with
  | id => exact raisedError_write_readOnly busy v (.inl hoff)
  | callcnt => exact raisedError_write_readOnly busy v (.inr (.inl hoff))
  | errinfo => exact raisedError_write_readOnly busy v (.inr (.inr hoff))
  | ctrl => rw [hoff]; simp [raisedError, Target.writeError]
  | status => rw [hoff]; simp [raisedError, Target.writeError]
  | cmd => rw [hoff]; exact raisedError_write_cmd busy off v
  | wWindow i k => exact raisedError_write_window busy v halign hoff
  | xWindow i => exact raisedError_write_window busy v halign hoff
  | lWindow k => exact raisedError_write_window busy v halign hoff

/-! ## What a host access can do -/

/-- `t` is what an access at `off` that raises no error makes of `s`: the answer to a read, a soft reset,
a CTRL or STATUS write, an accepted command, or the write of a window word while idle (R77, R78). -/
inductive AccessPerformed (a : Access) (off : BitVec 12) (s : State) : State → Prop
  | read (v : Word) (hkind : a.kind = .read) : AccessPerformed a off s (answer (some v) s)
  | readFree (hkind : a.kind = .read) (hbusy : s.busy = true) : AccessPerformed a off s (answerFree s)
  | softReset (v : Word) (hwidth : a.width = .bits32) (hoff : off.toNat = 0x004) (hkind : a.kind = .write v)
      (hsrst : v.getLsbD 0 = true) : AccessPerformed a off s (answer none (resetState s))
  | setIe (b : Bool) : AccessPerformed a off s (answer none { s with ie := b })
  | statusWrite (v : Word) : AccessPerformed a off s (answer none (writeStatus v s))
  | accepted (c : Word) (i : Instr) (hidle : s.busy = false) (hdecode : decode c = .command i) :
      AccessPerformed a off s (answer none (acceptCommand c s))
  | wroteW (i : WReg) (v : Wide) (hidle : s.busy = false) : AccessPerformed a off s (answer none (writeW i v s))
  | wroteX (i : XReg) (v : Word) (hidle : s.busy = false) : AccessPerformed a off s (answer none (writeX i v s))
  | wroteL (v : Wide) (hidle : s.busy = false) : AccessPerformed a off s (answer none (setL v s))

/-- `t` is what a rejected access makes of `s`: the error is recorded, a read answers 0 (R242, R243). -/
def AccessRejected (kind : AccessKind) (e : ECode) (info : Word) (s t : State) : Prop :=
  t = answer (if kind = .read then some 0#32 else none) (recordError e info s)

/-- `t` is what the access makes of `s`, given the error it raises. -/
def AccessResult (a : Access) (off : BitVec 12) (s t : State) : Option (ECode × Word) → Prop
  | some (e, info) => AccessRejected a.kind e info s t
  | none => AccessPerformed a off s t

section
variable {a : Access} {off : BitVec 12} {v : Word} (s : State)

theorem accessResult_rejectedRead (hkind : a.kind = .read) (e : ECode) (info : Word) :
    AccessResult a off s (answer (some 0#32) (recordError e info s)) (some (e, info)) := by
  simp [AccessResult, AccessRejected, hkind]

theorem accessResult_rejectedWrite (hkind : a.kind = .write v) (e : ECode) (info : Word) :
    AccessResult a off s (answer none (recordError e info s)) (some (e, info)) := by
  simp [AccessResult, AccessRejected, hkind]

theorem readTarget_performed (hkind : a.kind = .read) (t : Target) :
    AccessPerformed a off s (readTarget t s) := by
  obtain ⟨hbusy, -, h⟩ | ⟨-, h⟩ := readTarget_cases t s
  · rw [h]; exact .readFree hkind hbusy
  · rw [h]; exact .read _ hkind

theorem writeCtrl_performed (hwidth : a.width = .bits32) (hkind : a.kind = .write v) (hoff : off.toNat = 0x004) :
    AccessPerformed a off s (answer none (writeCtrl v s)) := by
  obtain ⟨hsrst, h⟩ | ⟨-, h⟩ := writeCtrl_cases v s
  · rw [h]; exact .softReset v hwidth hoff hkind hsrst
  · rw [h]; exact .setIe _

theorem issueCommand_result (hkind : a.kind = .write v) :
    AccessResult a off s (answer none (issueCommand v s)) (Target.writeError s.busy off v .cmd) := by
  unfold Target.writeError
  obtain ⟨hb, h⟩ | ⟨hb, hd, h⟩ | ⟨hb, hd, h⟩ | ⟨hb, i, hd, h⟩ := issueCommand_cases v s
  · rw [h, hb]; exact accessResult_rejectedWrite s hkind _ _
  · rw [h, hb, hd]; exact accessResult_rejectedWrite s hkind _ _
  · rw [h, hb, hd]; exact accessResult_rejectedWrite s hkind _ _
  · rw [h, hb, hd]; exact .accepted v i hb hd

theorem writeWindow_result {store : State} (hkind : a.kind = .write v)
    (hstore : s.busy = false → AccessPerformed a off s (answer none store)) :
    AccessResult a off s (answer none (writeWindow off store s))
      (if s.busy then some (.busyWrite, accessInfo true off) else none) := by
  obtain ⟨hb, h⟩ | ⟨hb, h⟩ := writeWindow_cases off store s
  · rw [h, hb]; exact accessResult_rejectedWrite s hkind _ _
  · rw [h, hb]; exact hstore hb

theorem writeTarget_result {t : Target} (hbad : badAccess a.width off = false) (hkind : a.kind = .write v)
    (ht : targetAt off.toNat = some t) :
    AccessResult a off s (answer none (writeTarget t off v s)) (t.writeError s.busy off v) := by
  obtain ⟨hwidth, -⟩ := (badAccess_eq_false_iff a.width off).1 hbad
  cases t with
  | id | callcnt | errinfo => exact accessResult_rejectedWrite s hkind _ _
  | ctrl => exact writeCtrl_performed s hwidth hkind (atOffset_of_targetAt ht)
  | status => exact .statusWrite v
  | cmd => exact issueCommand_result s hkind
  | wWindow i k => exact writeWindow_result s hkind (.wroteW i _)
  | xWindow i => exact writeWindow_result s hkind (.wroteX i _)
  | lWindow k => exact writeWindow_result s hkind (.wroteL _)

theorem hostRead_result (hkind : a.kind = .read) :
    AccessResult a off s (hostRead a.width off s) (raisedError s.busy a.width .read off.toNat) := by
  obtain ⟨hbad, h⟩ | ⟨hbad, ht, h⟩ | ⟨hbad, t, ht, h⟩ := hostRead_cases a.width off s
  · rw [h, raisedError_bad _ _ hbad]; exact accessResult_rejectedRead s hkind _ _
  · rw [h, raisedError_unmapped _ _ hbad ht]; exact accessResult_rejectedRead s hkind _ _
  · rw [h, raisedError_read_mapped _ hbad ht]; exact readTarget_performed s hkind t

theorem hostWrite_result (hkind : a.kind = .write v) :
    AccessResult a off s (hostWrite a.width off v s) (raisedError s.busy a.width (.write v) off.toNat) := by
  obtain ⟨hbad, h⟩ | ⟨hbad, ht, h⟩ | ⟨hbad, t, ht, h⟩ := hostWrite_cases a.width off v s
  · rw [h, raisedError_bad _ _ hbad]; exact accessResult_rejectedWrite s hkind _ _
  · rw [h, raisedError_unmapped _ _ hbad ht]; exact accessResult_rejectedWrite s hkind _ _
  · rw [h, raisedError_write_mapped _ _ hbad ht]; exact writeTarget_result s hbad hkind ht

end

theorem windowAccess_result (a : Access) (off : BitVec 12) (s : State) :
    AccessResult a off s (windowAccess a off s) (raisedError s.busy a.width a.kind off.toNat) := by
  cases hkind : a.kind with
  | read => simpa only [windowAccess, hkind] using hostRead_result s hkind
  | write v => simpa only [windowAccess, hkind] using hostWrite_result s hkind

/-- Everything an access at an offset of the window can do: the first error that R241 and R244 name for it
is recorded and nothing else happens, or it raises none and is performed. -/
theorem windowAccess_cases (a : Access) (off : BitVec 12) (s : State) :
    (∃ e info, raisedError s.busy a.width a.kind off.toNat = some (e, info) ∧
      AccessRejected a.kind e info s (windowAccess a off s)) ∨
    (raisedError s.busy a.width a.kind off.toNat = none ∧ AccessPerformed a off s (windowAccess a off s)) := by
  have hresult := windowAccess_result a off s
  cases hraised : raisedError s.busy a.width a.kind off.toNat with
  | some r => rw [hraised] at hresult; exact .inl ⟨r.1, r.2, rfl, hresult⟩
  | none => rw [hraised] at hresult; exact .inr ⟨rfl, hresult⟩

/-! ## Access errors -/

/-- A host turn at window offset `off` is the window's access at that offset. -/
theorem step_windowAccess {s : State} {a : Access} {ts : List Turn} {off : Nat}
    (hturns : s.turns = .host a :: ts) (haddr : a.addr = s.params.base + off) (hoff : off < 4096) :
    step s = .next (windowAccess a (BitVec.ofNat 12 off) (setTurns ts s)) := by
  rw [step_host hturns]
  exact hostAccess_of_offset a (setTurns ts s) off haddr hoff

theorem raisedError_ne_noError {busy : Bool} {width : AccessWidth} {kind : AccessKind} {off : Nat}
    {e : ECode} {info : Word} (h : raisedError busy width kind off = some (e, info)) : e ≠ .noError := by
  rintro rfl
  cases kind
  all_goals
    simp only [raisedError] at h
    split_ifs at h
    all_goals cases h

theorem accessRejected_setTurns_eq {kind : AccessKind} {e : ECode} {info : Word} {ts : List Turn} {s t : State}
    (h : AccessRejected kind e info (setTurns ts s) t) :
    t = { s with
      turns := ts
      reply := if kind = .read then some 0#32 else none
      err := true
      ecode := if s.err then s.ecode else e
      errinfo := if s.err then s.errinfo else info } := by
  rw [h]
  obtain ⟨herr, hrec⟩ | ⟨herr, hrec⟩ := recordError_cases e info (setTurns ts s)
  · have herr : s.err = true := herr
    rw [hrec]; simp [answer, setTurns, herr]
  · have herr : s.err = false := herr
    rw [hrec]; simp [answer, setTurns, herr]

/-- An access that is performed records no error: one that stands after it stood before it. -/
theorem AccessPerformed.err_of_err {a : Access} {off : BitVec 12} {s t : State}
    (h : AccessPerformed a off s t) (herr : t.err = true) :
    s.err = true ∧ t.ecode = s.ecode ∧ t.errinfo = s.errinfo := by
  cases h with
  | softReset v => cases herr
  | statusWrite v =>
    have hkept : v[3] = false ∧ s.err = true := by simpa [writeStatus_eq] using herr
    simp [writeStatus_eq, hkept]
  | read _ | readFree | setIe _ | accepted _ _ | wroteW _ _ | wroteX _ _ | wroteL _ => exact ⟨herr, rfl, rfl⟩

/-- Settles O11: a host turn is the window's access, which is either rejected with the error of R241 to
R244 or performed, and a performed access records none. -/
theorem accessErrorsInPriorityOrder : Obligations.AccessErrorsInPriorityOrder := by
  intro s a ts off hturns haddr hoff
  have hresult := windowAccess_result a (BitVec.ofNat 12 off) (setTurns ts s)
  rw [BitVec.toNat_ofNat, Nat.mod_eq_of_lt hoff] at hresult
  change AccessResult a _ _ _ (raisedError s.busy a.width a.kind off) at hresult
  refine ⟨_, step_windowAccess hturns haddr hoff, fun e info hraised => ?_, fun hnone herr => ?_⟩
  · rw [hraised] at hresult
    exact accessRejected_setTurns_eq hresult
  · rw [hnone] at hresult
    exact hresult.err_of_err herr

/-! ## CALLCNT and host accesses -/

theorem AccessPerformed.callcnt_eq {a : Access} {off : BitVec 12} {s t : State} (h : AccessPerformed a off s t)
    (hreset : ∀ v, a.width = .bits32 → off.toNat = 0x004 → a.kind = .write v → v.getLsbD 0 = false) :
    t.callcnt = s.callcnt := by
  cases h with
  | softReset v hwidth hoff hkind hsrst =>
    rw [hreset v hwidth hoff hkind] at hsrst
    cases hsrst
  | statusWrite v => simp [writeStatus_eq]
  | read _ | readFree | setIe _ | accepted _ _ | wroteW _ _ | wroteX _ _ | wroteL _ => rfl

theorem AccessRejected.callcnt_eq {kind : AccessKind} {e : ECode} {info : Word} {s t : State}
    (h : AccessRejected kind e info s t) : t.callcnt = s.callcnt := by
  rw [h]; simp

/-- Settles O26: rejected or performed, an access leaves CALLCNT, unless it is the CTRL write with
SRST = 1, which is the turn that `isResetTurn` excludes. -/
theorem hostAccessesLeaveCallCount : Obligations.HostAccessesLeaveCallCount := by
  intro s t a ts hturns hreset hstep
  rw [step_host hturns] at hstep
  obtain ⟨hpage, h⟩ | ⟨-, h⟩ := hostAccess_cases a (setTurns ts s)
  · obtain rfl := Host.Outcome.next.inj (h.symm.trans hstep)
    obtain ⟨e, info, -, hrejected⟩ | ⟨-, hperformed⟩ :=
      windowAccess_cases a (BitVec.ofNat 12 a.addr) (setTurns ts s)
    · exact hrejected.callcnt_eq
    · refine hperformed.callcnt_eq fun v hwidth hoff hkind => ?_
      have haddr : a.addr = s.params.base + 0x004 := by
        rw [setTurns_params] at hpage
        rw [BitVec.toNat_ofNat] at hoff
        rw [Params.base]
        omega
      exact Bool.eq_false_iff.2 fun hsrst => hreset ⟨haddr, hwidth, v, hkind, hsrst⟩
  · cases h.symm.trans hstep

/-! ## The invariant -/

/-- The invariant, with the latch's clause for the word it holds. -/
theorem coreInv_iff (s : State) : CoreInv s ↔
    (∀ c, s.pend = some c → (decode c).instr?.isSome = true ∧ s.cmd = c ∧ s.done = false) ∧
      errorSound s ∧ cmdSound s := by
  unfold CoreInv latchSound
  cases s.pend <;> simp

theorem coreInv_resetState (s : State) : CoreInv (resetState s) := by
  have hnop : (decode 0#32).instr?.isSome = true := by decide
  simpa [coreInv_iff, errorSound, cmdSound] using hnop

theorem CoreInv.complete {s : State} (h : CoreInv s) : CoreInv (complete s) :=
  ⟨trivial, h.2⟩

theorem CoreInv.recordError {s : State} (h : CoreInv s) {e : ECode} (he : e ≠ .noError) (info : Word) :
    CoreInv (recordError e info s) := by
  obtain ⟨-, hrec⟩ | ⟨-, hrec⟩ := recordError_cases e info s
  · rw [hrec]; exact h
  · obtain ⟨hlatch, -, hcmd⟩ := h
    rw [hrec]
    exact ⟨hlatch, ⟨⟨fun _ => he, fun _ => rfl⟩, fun hf => Bool.noConfusion hf⟩, hcmd⟩

/-- A STATUS write clears ERR, ECODE and ERRINFO together, and DONE can only become 0. -/
theorem CoreInv.writeStatus {s : State} (h : CoreInv s) (v : Word) : CoreInv (writeStatus v s) := by
  obtain ⟨hlatch, ⟨herr, hinfo⟩, hcmd⟩ := (coreInv_iff s).1 h
  rw [writeStatus_eq, coreInv_iff]
  refine ⟨fun c hc => ?_, ?_, hcmd⟩
  · obtain ⟨hdec, hc, hdone⟩ := hlatch c hc
    exact ⟨hdec, hc, by simp [hdone]⟩
  · cases v.getLsbD 3
    · exact ⟨herr, hinfo⟩
    · simp [errorSound]

/-- An accepted word is a command, is the CMD readback, and clears DONE (R101). -/
theorem CoreInv.acceptCommand {s : State} (h : CoreInv s) {c : Word} {i : Instr}
    (hdecode : decode c = .command i) : CoreInv (acceptCommand c s) := by
  have hc : (decode c).instr?.isSome = true := by rw [hdecode]; rfl
  exact ⟨⟨hc, rfl, rfl⟩, h.2.1, hc⟩

theorem AccessPerformed.coreInv {a : Access} {off : BitVec 12} {s t : State} (h : AccessPerformed a off s t)
    (hs : CoreInv s) : CoreInv t := by
  cases h with
  | softReset v => exact coreInv_resetState s
  | statusWrite v => exact hs.writeStatus v
  | accepted c i hidle hdecode => exact hs.acceptCommand hdecode
  | read _ | readFree | setIe _ | wroteW _ _ | wroteX _ _ | wroteL _ => exact hs

theorem windowAccess_coreInv (a : Access) (off : BitVec 12) {s : State} (hs : CoreInv s) :
    CoreInv (windowAccess a off s) := by
  obtain ⟨e, info, hraised, hrejected⟩ | ⟨-, hperformed⟩ := windowAccess_cases a off s
  · rw [hrejected]
    exact hs.recordError (raisedError_ne_noError hraised) info
  · exact hperformed.coreInv hs

theorem exec_coreInv {i : Instr} {s t : State} (h : exec i s = .next t) (hs : CoreInv s) : CoreInv t := by
  obtain ⟨u, ⟨⟨-, -, herr, hecode, herrinfo, hcmd, -⟩, hpend, hdone⟩, he⟩ := exec_completesOrHangs i s
  have hu : CoreInv u := by
    rw [coreInv_iff] at hs ⊢
    simpa only [errorSound, cmdSound, hpend, hcmd, hdone, herr, hecode, herrinfo] using hs
  obtain he | he := he
  · obtain rfl : complete u = t := Host.Outcome.next.inj (he.symm.trans h)
    exact hu.complete
  · obtain rfl : u = t := Host.Outcome.next.inj (he.symm.trans h)
    exact hu

theorem engineTurn_coreInv {s t : State} (h : engineTurn s = .next t) (hs : CoreInv s) : CoreInv t := by
  obtain ⟨-, he⟩ | ⟨c, i, -, -, he⟩ | ⟨c, -, -, he⟩ := engineTurn_cases s
  · obtain rfl : s = t := Host.Outcome.next.inj (he.symm.trans h)
    exact hs
  · exact exec_coreInv (he.symm.trans h) hs
  · cases he.symm.trans h

/-- Settles O3: the invariant is kept by the engine's turn (a command keeps the latch or empties it), by
the host's access (rejected or performed) and by the reset input's turn. -/
theorem everyStepKeepsInvariant : Obligations.EveryStepKeepsInvariant := by
  intro s t hs h
  obtain ⟨-, he⟩ | ⟨ts, -, he⟩ | ⟨a, ts, -, he⟩ | ⟨ts, -, he⟩ := step_cases s
  · exact engineTurn_coreInv (he.symm.trans h) hs
  · exact engineTurn_coreInv (s := setTurns ts s) (he.symm.trans h) hs
  · obtain ⟨-, ha⟩ | ⟨-, ha⟩ := hostAccess_cases a (setTurns ts s)
    · obtain rfl := Host.Outcome.next.inj ((he.trans ha).symm.trans h)
      exact windowAccess_coreInv a _ (s := setTurns ts s) hs
    · cases (he.trans ha).symm.trans h
  · obtain rfl := Host.Outcome.next.inj (he.symm.trans h)
    exact coreInv_resetState _

/-- Settles O2: the state after reset is what a reset makes of itself, and every reset gives the
invariant. -/
theorem resetMeetsInvariant : Obligations.ResetMeetsInvariant :=
  ⟨coreInv_resetState State.reset, fun p => coreInv_resetState (State.resetWith p)⟩

/-! ## The engine's turn -/

/-- Settles O10: a named engine turn and an empty list both run `engineTurn`, on the latch as it stands. -/
theorem stepRunsTheLatchedCommand : Obligations.StepRunsTheLatchedCommand := by
  refine ⟨fun s c i hp hd => ⟨fun h => ?_, fun ts h => ?_⟩, fun s hp => ⟨fun h => ?_, fun ts h => ?_⟩⟩
  · rw [step_no_turn h]; exact engineTurn_runs s c i hp hd
  · rw [step_engine h]; exact engineTurn_runs (setTurns ts s) c i hp hd
  · rw [step_no_turn h]; exact engineTurn_idle s hp
  · rw [step_engine h]; exact engineTurn_idle (setTurns ts s) hp

/-- What a command without draws does ends with its completion. -/
theorem exec_completes {i : Instr} (s : State) (hldraw : i.mnemonic ≠ "LDRAW") (hlock : i.mnemonic ≠ "LOCK")
    (hunlock : i.mnemonic ≠ "UNLOCK") : ∃ u, commandResult s u ∧ exec i s = .next (complete u) := by
  cases i with
  | inv3 d src =>
    obtain ⟨-, h⟩ | ⟨R, -, h⟩ := execInv3_cases d src s
    · exact ⟨_, by simp, h⟩
    · exact ⟨_, by simp, h⟩
  | ginv d src =>
    obtain ⟨-, h⟩ | ⟨R, -, h⟩ := execGinv_cases d src s
    · exact ⟨_, by simp, h⟩
    · exact ⟨_, by simp, h⟩
  | ldraw d => exact absurd rfl hldraw
  | lock d k b => exact absurd rfl hlock
  | unlock d k b => exact absurd rfl hunlock
  | nop | sinv _ _ | det3 _ _ | adj3 _ _ | mvm3 _ _ _ | gmm _ _ _ | gmv _ _ _ | gisinv _ _ | lseed | lload _
  | lstore _ | lcall _ _ => exact ⟨_, by simp, rfl⟩

/-- A 32-bit aligned write of a mapped word. -/
theorem step_writeAt {s : State} {ts : List Turn} {off : Nat} {v : Word} {t : Target} (hoff : off < 4096)
    (halign : off % 4 = 0) (ht : targetAt off = some t) (h : s.turns = .host (writeAt s.params off v) :: ts) :
    step s = .next (answer none (writeTarget t (BitVec.ofNat 12 off) v (setTurns ts s))) := by
  rw [step_windowAccess h rfl hoff]
  simp [windowAccess, hostWrite, badAccess, Nat.mod_eq_of_lt hoff, halign, ht]

/-- A 32-bit aligned read of a mapped word. -/
theorem step_readAt {s : State} {ts : List Turn} {off : Nat} {t : Target} (hoff : off < 4096)
    (halign : off % 4 = 0) (ht : targetAt off = some t) (h : s.turns = .host (readAt s.params off) :: ts) :
    step s = .next (readTarget t (setTurns ts s)) := by
  rw [step_windowAccess h rfl hoff]
  simp [windowAccess, hostRead, badAccess, Nat.mod_eq_of_lt hoff, halign, ht]

/-- A read of a word that R78 does not free, or made while idle, answers the word's value. -/
theorem step_readAt_exact {s : State} {ts : List Turn} {off : Nat} {t : Target} (hoff : off < 4096)
    (halign : off % 4 = 0) (ht : targetAt off = some t) (hexact : s.pend = none ∨ freeWhileBusy t = false)
    (h : s.turns = .host (readAt s.params off) :: ts) :
    step s = .next { s with turns := ts, reply := some (valueAt t (setTurns ts s)) } := by
  rw [step_readAt hoff halign ht h]
  obtain ⟨hbusy, hfree, -⟩ | ⟨-, hread⟩ := readTarget_cases t (setTurns ts s)
  · obtain hidle | hkept := hexact
    · simp [busy_eq, hidle] at hbusy
    · rw [hkept] at hfree; cases hfree
  · rw [hread]; rfl

theorem issueCommand_encode {s : State} {i : Instr} (hi : i.wellFormed = true) (hidle : s.pend = none) :
    issueCommand (encode i) s = acceptCommand (encode i) s := by
  simp [issueCommand, busy_eq, hidle, decode_encode i hi]

theorem step_writeCommand {s : State} {ts : List Turn} {i : Instr} (hi : i.wellFormed = true)
    (hidle : s.pend = none) (h : s.turns = .host (writeAt s.params 0x00C (encode i)) :: ts) :
    step s = .next (answer none (acceptCommand (encode i) (setTurns ts s))) := by
  rw [step_writeAt (by decide) (by decide) rfl h, writeTarget, issueCommand_encode (s := setTurns ts s) hi hidle]

/-- Settles O13: the CMD write latches the word, which decodes to the command, and its execution ends in
the completion. -/
theorem acceptedCommandCompletes : Obligations.AcceptedCommandCompletes := by
  intro s i hi hidle hturns hldraw hlock hunlock
  have hwrite := step_writeCommand hi hidle hturns
  obtain ⟨u, ⟨⟨-, -, herr, hecode, herrinfo, hcmd, -⟩, -⟩, hexec⟩ :=
    exec_completes (setTurns [] (answer none (acceptCommand (encode i) (setTurns [.engine] s))))
      hldraw hlock hunlock
  refine ⟨_, complete u, hwrite, rfl, ?_, ⟨rfl, rfl⟩, hcmd, herr, hecode, herrinfo⟩
  rw [step_engine rfl, engineTurn_runs _ (encode i) i rfl (decode_encode i hi)]
  exact hexec

/-! ## Which commands write NI, CALLCNT and L -/

/-- The commands that write NI (R42). -/
def niWriters : List String := ["SINV", "INV3", "GINV", "GISINV"]

/-- The commands that make generator calls (R46). -/
def generatorCallers : List String := ["LCALL", "LDRAW", "LOCK", "UNLOCK"]

/-- The commands that write L without a call (R35). -/
def generatorLoaders : List String := ["LSEED", "LLOAD"]

/-- What a command named `m` may change of NI, CALLCNT and L. -/
def specialFrame (m : String) (s t : State) : Prop :=
  (m ∉ niWriters → t.ni = s.ni) ∧ (m ∉ generatorCallers → t.callcnt = s.callcnt) ∧
    (m ∉ generatorCallers ++ generatorLoaders → t.l = s.l)

section
variable {m : String} {s t : State}

theorem specialFrame_of_plain (hni : t.ni = s.ni) (hgen : sameGenerator s t) : specialFrame m s t :=
  ⟨fun _ => hni, fun _ => hgen.2, fun _ => hgen.1⟩

theorem specialFrame_of_niWriter (hm : m ∈ niWriters) (hgen : sameGenerator s t) : specialFrame m s t :=
  ⟨fun hn => absurd hm hn, fun _ => hgen.2, fun _ => hgen.1⟩

theorem specialFrame_of_caller (hm : m ∈ generatorCallers) (hni : t.ni = s.ni) : specialFrame m s t :=
  ⟨fun _ => hni, fun hn => absurd hm hn, fun hn => absurd (List.mem_append_left _ hm) hn⟩

theorem specialFrame_of_loader (hm : m ∈ generatorLoaders) (hni : t.ni = s.ni) (hcount : t.callcnt = s.callcnt) :
    specialFrame m s t :=
  ⟨fun _ => hni, fun _ => hcount, fun hn => absurd (List.mem_append_right _ hm) hn⟩

theorem maskedTransform_ni {factor : Masks → Masks} {d k b : WReg} (h : maskedTransform factor d k b s = .next t) :
    t.ni = s.ni := by
  obtain ⟨m, v, n, -, he⟩ | ⟨v, n, -, he⟩ := maskedTransform_cases factor d k b s
  · obtain rfl := Host.Outcome.next.inj (he.symm.trans h); rfl
  · obtain rfl := Host.Outcome.next.inj (he.symm.trans h); rfl

end

theorem exec_specialFrame {i : Instr} {s t : State} (h : exec i s = .next t) : specialFrame i.mnemonic s t := by
  cases i with
  | nop | det3 _ _ | adj3 _ _ | mvm3 _ _ _ | gmm _ _ _ | gmv _ _ _ | lstore _ =>
    obtain rfl := Host.Outcome.next.inj h
    exact specialFrame_of_plain rfl ⟨rfl, rfl⟩
  | sinv _ _ | gisinv _ _ =>
    obtain rfl := Host.Outcome.next.inj h
    exact specialFrame_of_niWriter (by simp [niWriters, Instr.mnemonic]) ⟨rfl, rfl⟩
  | inv3 d src =>
    obtain ⟨-, he⟩ | ⟨R, -, he⟩ := execInv3_cases d src s
    · obtain rfl := Host.Outcome.next.inj (he.symm.trans h)
      exact specialFrame_of_niWriter (by simp [niWriters, Instr.mnemonic]) ⟨rfl, rfl⟩
    · obtain rfl := Host.Outcome.next.inj (he.symm.trans h)
      exact specialFrame_of_niWriter (by simp [niWriters, Instr.mnemonic]) ⟨rfl, rfl⟩
  | ginv d src =>
    obtain ⟨-, he⟩ | ⟨R, -, he⟩ := execGinv_cases d src s
    · obtain rfl := Host.Outcome.next.inj (he.symm.trans h)
      exact specialFrame_of_niWriter (by simp [niWriters, Instr.mnemonic]) ⟨rfl, rfl⟩
    · obtain rfl := Host.Outcome.next.inj (he.symm.trans h)
      exact specialFrame_of_niWriter (by simp [niWriters, Instr.mnemonic]) ⟨rfl, rfl⟩
  | lseed | lload _ =>
    obtain rfl := Host.Outcome.next.inj h
    exact specialFrame_of_loader (by simp [generatorLoaders, Instr.mnemonic]) rfl rfl
  | lcall _ _ =>
    obtain rfl := Host.Outcome.next.inj h
    exact specialFrame_of_caller (by simp [generatorCallers, Instr.mnemonic]) rfl
  | ldraw d =>
    obtain ⟨m, v, n, -, he⟩ | ⟨v, n, -, he⟩ := execLdraw_cases d s
    · obtain rfl := Host.Outcome.next.inj (he.symm.trans h)
      exact specialFrame_of_caller (by simp [generatorCallers, Instr.mnemonic]) rfl
    · obtain rfl := Host.Outcome.next.inj (he.symm.trans h)
      exact specialFrame_of_caller (by simp [generatorCallers, Instr.mnemonic]) rfl
  | lock _ _ _ | unlock _ _ _ =>
    exact specialFrame_of_caller (by simp [generatorCallers, Instr.mnemonic]) (maskedTransform_ni h)

/-- Settles O24, by the commands' frames of NI. -/
theorem onlyFourCommandsWriteNi : Obligations.OnlyFourCommandsWriteNi := by
  intro i s t h hne
  obtain ⟨hni, -, -⟩ := exec_specialFrame h
  have hm : i.mnemonic ∈ niWriters := Decidable.not_imp_comm.1 hni hne
  simpa [niWriters] using hm

/-- Settles O25, by the commands' frames of CALLCNT and L. -/
theorem onlyGeneratorCommandsMoveTheGenerator : Obligations.OnlyGeneratorCommandsMoveTheGenerator := by
  intro i s t h
  obtain ⟨-, hcount, hl⟩ := exec_specialFrame h
  refine ⟨fun hne => ?_, fun hne => ?_⟩
  · have hm : i.mnemonic ∈ generatorCallers := Decidable.not_imp_comm.1 hcount hne
    simpa [generatorCallers] using hm
  · have hm : i.mnemonic ∈ generatorCallers ++ generatorLoaders := Decidable.not_imp_comm.1 hl hne
    simpa [generatorCallers, generatorLoaders] using hm

/-! ## Resets -/

theorem byteOf_zero (k : Nat) : byteOf 0#128 k = 0#8 := by simp [byteOf]

theorem byteOf_encoderSeed : ∀ k : Fin 16, byteOf encoderSeed k.val =
    if k = 0 then 0x01#8 else if k = 15 then 0x80#8 else 0x00#8 := by decide

theorem ctrlWord_resetState (s : State) : ctrlWord (resetState s) = 0#32 := by simp [ctrlWord]

theorem statusWord_resetState (s : State) : statusWord (resetState s) = 0#32 := by
  simp [statusWord, busy_eq, ecodeByte]

theorem atReset_resetState (s : State) : atReset (resetState s) := by
  refine ⟨fun i k => ?_, fun i => ?_, byteOf_encoderSeed, ctrlWord_resetState s,
    statusWord_resetState s, rfl, rfl, rfl, rfl, rfl, rfl⟩
  · simp [byteOf_zero]
  · simp

/-- Settles O1: the reset state, the reset input's turn and the soft reset are all `resetState`, whose
registers are those of R51. -/
theorem resetGivesEveryRegisterItsValue : Obligations.ResetGivesEveryRegisterItsValue := by
  refine ⟨atReset_resetState State.reset, fun s ts h => ?_, fun s ts v h hsrst => ?_⟩
  · exact ⟨_, step_reset h, atReset_resetState _⟩
  · have hwrite := step_writeAt (by decide) (by decide) rfl h
    rw [writeTarget, writeCtrl, if_pos hsrst] at hwrite
    exact ⟨_, hwrite, atReset_resetState (setTurns ts s)⟩

/-! ## CTRL and STATUS -/

/-- Settles O19: without SRST a CTRL write sets IE alone. -/
theorem ctrlWriteSetsInterruptEnable : Obligations.CtrlWriteSetsInterruptEnable := by
  intro s ts v h hsrst
  rw [step_writeAt (by decide) (by decide) rfl h, writeTarget, writeCtrl, hsrst]
  rfl

/-- Settles O18: the write is `writeStatus`, whose effect is known field by field. -/
theorem statusWriteClearsDoneAndErr : Obligations.StatusWriteClearsDoneAndErr := by
  intro s ts v h
  rw [step_writeAt (by decide) (by decide) rfl h, writeTarget, writeStatus_eq]
  rfl

/-- Words that agree under a mask agree at its bits. -/
theorem getLsbD_eq_of_and_eq {v v' mask : Word} (h : v &&& mask = v' &&& mask) {k : Nat}
    (hk : mask.getLsbD k = true) : v.getLsbD k = v'.getLsbD k := by
  have hbit := congrArg (fun c : Word => c.getLsbD k) h
  simpa only [BitVec.getLsbD_and, hk, Bool.and_true] using hbit

theorem ctrlWord_getLsbD_of_ge (s : State) {k : Nat} (hk : 2 ≤ k) : (ctrlWord s).getLsbD k = false := by
  have h1 : ¬ k < 1 := by omega
  have h2 : ¬ k - 1 < 1 := by omega
  rw [ctrlWord, BitVec.getLsbD_append, BitVec.getLsbD_append, if_neg h1, if_neg h2, BitVec.getLsbD_zero]

/-- Every bit of STATUS, by the field it lies in (R40 to R43, R48). -/
theorem statusWord_getLsbD (s : State) (k : Nat) :
    (statusWord s).getLsbD k =
      if k < 1 then s.busy
      else if k < 2 then s.done
      else if k < 3 then s.ni
      else if k < 4 then s.err
      else if k < 8 then false
      else if k < 16 then (ecodeByte s.ecode).getLsbD (k - 8)
      else false := by
  unfold statusWord
  rw [BitVec.getLsbD_append, BitVec.getLsbD_append, BitVec.getLsbD_append, BitVec.getLsbD_append,
    BitVec.getLsbD_append, BitVec.getLsbD_append]
  rcases Nat.lt_or_ge k 16 with hk | hk
  · interval_cases k <;> simp
  · simp (disch := omega) only [if_neg, BitVec.getLsbD_zero]

theorem statusWord_getLsbD_reserved (s : State) {k : Nat} (hk : (4 ≤ k ∧ k ≤ 7) ∨ 16 ≤ k) :
    (statusWord s).getLsbD k = false := by
  rw [statusWord_getLsbD]
  obtain hlow | hhigh := hk
  · simp (disch := omega) only [if_neg, if_pos]
  · simp (disch := omega) only [if_neg]

/-- Settles O17: the reserved bits of both words are constants 0, and both writes look at bits of the mask
alone. -/
theorem reservedBitsReadZeroAndIgnoreWrites : Obligations.ReservedBitsReadZeroAndIgnoreWrites := by
  refine ⟨fun s k hk => ctrlWord_getLsbD_of_ge s hk, fun s k hk => statusWord_getLsbD_reserved s hk,
    fun s ts v v' h => ?_, fun s ts v v' h => ?_⟩
  · rw [step_writeAt (off := 0x004) (by decide) (by decide) rfl rfl,
      step_writeAt (off := 0x004) (v := v') (by decide) (by decide) rfl rfl]
    simp only [writeTarget, writeCtrl, getLsbD_eq_of_and_eq h (k := 0) (by decide),
      getLsbD_eq_of_and_eq h (k := 1) (by decide)]
    rfl
  · rw [step_writeAt (off := 0x008) (by decide) (by decide) rfl rfl,
      step_writeAt (off := 0x008) (v := v') (by decide) (by decide) rfl rfl]
    simp only [writeTarget, writeStatus_eq, getLsbD_eq_of_and_eq h (k := 1) (by decide),
      getLsbD_eq_of_and_eq h (k := 3) (by decide)]
    rfl

/-- The codes of R241. -/
def ecodes : List ECode :=
  [.noError, .illegalOpcode, .illegalOperand, .busyWrite, .badAccess, .unmapped, .roWrite]

theorem mem_ecodes (e : ECode) : e ∈ ecodes := by cases e <;> decide

theorem ecodeByte_injective : Function.Injective ecodeByte := by
  have hinj : ∀ e ∈ ecodes, ∀ e' ∈ ecodes, ecodeByte e = ecodeByte e' → e = e' := by decide
  exact fun e e' => hinj e (mem_ecodes e) e' (mem_ecodes e')

theorem statusWord_ecode (s : State) : (statusWord s).extractLsb' 8 8 = ecodeByte s.ecode := by
  apply BitVec.eq_of_getLsbD_eq
  intro i hi
  rw [BitVec.getLsbD_extractLsb', statusWord_getLsbD]
  interval_cases i <;> simp

theorem statusWord_ecode_eq_iff (s : State) (e : ECode) :
    (statusWord s).extractLsb' 8 8 = ecodeByte e ↔ s.ecode = e := by
  rw [statusWord_ecode, ecodeByte_injective.eq_iff]

theorem statusWord_reserved (s : State) :
    (statusWord s).extractLsb' 4 4 = 0#4 ∧ (statusWord s).extractLsb' 16 16 = 0#16 := by
  constructor
  · apply BitVec.eq_of_getLsbD_eq
    intro i hi
    rw [BitVec.getLsbD_extractLsb', statusWord_getLsbD_reserved s (by omega)]
    simp
  · apply BitVec.eq_of_getLsbD_eq
    intro i hi
    rw [BitVec.getLsbD_extractLsb', statusWord_getLsbD_reserved s (by omega)]
    simp

theorem ctrlWord_eq (s : State) : ctrlWord s = if s.ie then 2#32 else 0#32 := by
  unfold ctrlWord
  cases s.ie <;> rfl

/-- Settles O16: each register is read at its offset, ID, CTRL, STATUS, CMD and ERRINFO whether busy or
not; STATUS is taken apart by its fields. -/
theorem registerReadsAreExact : Obligations.RegisterReadsAreExact := by
  intro s ts
  refine ⟨fun h => ?_, fun h => ?_, fun h => ?_, fun h => ?_, fun h hidle => ?_, fun h => ?_⟩
  · exact step_readAt_exact (by decide) (by decide) rfl (.inr rfl) h
  · rw [← ctrlWord_eq]
    exact step_readAt_exact (by decide) (by decide) rfl (.inr rfl) h
  · have hread := step_readAt_exact (by decide) (by decide) rfl (.inr rfl) h
    have hbit := statusWord_getLsbD s
    refine ⟨statusWord s, hread, hbit 0, hbit 1, hbit 2, hbit 3, ?_⟩
    have hcode := statusWord_ecode_eq_iff s
    exact ⟨hcode .noError, hcode .illegalOpcode, hcode .illegalOperand, hcode .busyWrite, hcode .badAccess,
      hcode .unmapped, hcode .roWrite, statusWord_ecode s, statusWord_reserved s⟩
  · exact step_readAt_exact (by decide) (by decide) rfl (.inr rfl) h
  · exact step_readAt_exact (by decide) (by decide) rfl (.inl hidle) h
  · exact step_readAt_exact (by decide) (by decide) rfl (.inr rfl) h

end Sys2Proof.Machine

namespace Sys2Proof.Machine

/-! ## The window in the address space -/

/-- An access lies in the window when its address is on the page of `P_BASE` (R70). -/
theorem inWindow_host_iff (p : Params) (a : Access) : inWindow p (.host a) ↔ a.addr / 4096 = p.page := by
  simp only [inWindow, Params.base]
  omega

theorem step_inWindow {s : State} {a : Access} {ts : List Turn} (hturns : s.turns = .host a :: ts)
    (hin : inWindow s.params (.host a)) :
    ∃ off < 4096, a.addr = s.params.base + off ∧
      step s = .next (windowAccess a (BitVec.ofNat 12 off) (setTurns ts s)) := by
  have hoff : a.addr - s.params.base < 4096 := by omega
  have haddr : a.addr = s.params.base + (a.addr - s.params.base) := by omega
  exact ⟨_, hoff, haddr, step_windowAccess hturns haddr hoff⟩

theorem step_outsideWindow {s : State} {a : Access} {ts : List Turn} (hturns : s.turns = .host a :: ts)
    (hout : ¬ inWindow s.params (.host a)) : step s = .fault (.outsideWindow a.addr) := by
  rw [inWindow_host_iff] at hout
  rw [step_host hturns, hostAccess, setTurns_params, if_neg hout]

/-! ## Where a step stops -/

theorem exec_goes_on (i : Instr) (s : State) : ∃ t, exec i s = .next t := by
  obtain ⟨u, -, h | h⟩ := exec_completesOrHangs i s
  · exact ⟨_, h⟩
  · exact ⟨_, h⟩

/-- A sound latch is empty or holds a command, so the engine's turn is never refused. -/
theorem engineTurn_goes_on {s : State} (hs : CoreInv s) : ∃ t, engineTurn s = .next t := by
  obtain ⟨-, h⟩ | ⟨c, i, -, -, h⟩ | ⟨c, hpend, hnone, -⟩ := engineTurn_cases s
  · exact ⟨s, h⟩
  · rw [h]; exact exec_goes_on i s
  · obtain ⟨hlatch, -⟩ := (coreInv_iff s).1 hs
    obtain ⟨hsome, -⟩ := hlatch c hpend
    rw [hnone] at hsome
    cases hsome

/-- Settles O4: the engine's turn goes on since the latch is sound, the reset input's always does, and the
host's goes on exactly in the window. -/
theorem stepStopsOnlyOutsideTheWindow : Obligations.StepStopsOnlyOutsideTheWindow := by
  refine fun s hs => ⟨fun hin => ?_, fun a ts hturns hout => step_outsideWindow hturns hout⟩
  obtain ⟨-, h⟩ | ⟨ts, -, h⟩ | ⟨a, ts, hturns, -⟩ | ⟨ts, -, h⟩ := step_cases s
  · rw [h]; exact engineTurn_goes_on hs
  · rw [h]; exact engineTurn_goes_on (s := setTurns ts s) hs
  · obtain ⟨off, -, -, h⟩ := step_inWindow hturns (hin _ ts hturns)
    exact ⟨_, h⟩
  · exact ⟨_, h⟩

/-! ## The map of R71 and the window addressing of R72, from word to offset -/

/-- The offset of a word of the window. -/
def Target.offset : Target → Nat
  | .id => 0x000
  | .ctrl => 0x004
  | .status => 0x008
  | .cmd => 0x00C
  | .callcnt => 0x010
  | .errinfo => 0x014
  | .wWindow i k => 0x040 + 16 * i.val + 4 * k.val
  | .xWindow i => 0x0C0 + 4 * i.val
  | .lWindow k => 0x0E0 + 4 * k.val

theorem Target.offset_mod_four (t : Target) : t.offset % 4 = 0 := by
  cases t with
  | id | ctrl | status | cmd | callcnt | errinfo => rfl
  | wWindow i k | xWindow i | lWindow k => simp only [Target.offset]; omega

theorem Target.offset_lt (t : Target) : t.offset < 4096 := by
  cases t with
  | id | ctrl | status | cmd | callcnt | errinfo => decide
  | wWindow i k | xWindow i | lWindow k => simp only [Target.offset]; omega

theorem targetAt_offset (t : Target) : targetAt t.offset = some t := by
  cases t with
  | id | ctrl | status | cmd | callcnt | errinfo => rfl
  | wWindow i k => revert i k; decide
  | xWindow i => revert i; decide
  | lWindow k => revert k; decide

theorem offset_injective : Function.Injective Target.offset := fun t u h =>
  Option.some.inj (by rw [← targetAt_offset t, h, targetAt_offset])

/-- A word has one aligned offset. -/
theorem offset_of_targetAt {off : Nat} {t : Target} (halign : off % 4 = 0) (h : targetAt off = some t) :
    t.offset = off := by
  unfold targetAt at h
  split_ifs at h
  all_goals
    obtain rfl := Option.some.inj h
    simp only [Target.offset, Fin.ofNat]
    omega

/-- Every aligned offset from 0x040 up to 0x0F0 is that of a word of the W, X and L windows (R71). -/
theorem exists_target_of_window {off : Nat} (hlo : 0x040 ≤ off) (hhi : off < 0x0F0) (halign : off % 4 = 0) :
    ∃ t : Target, t.offset = off := by
  obtain ⟨-, hout⟩ | ⟨t, ht, -⟩ := targetAt_cases off
  · omega
  · exact ⟨t, offset_of_targetAt halign ht⟩

theorem step_readTarget_exact {s : State} {ts : List Turn} (t : Target)
    (hexact : s.pend = none ∨ freeWhileBusy t = false)
    (h : s.turns = .host (readAt s.params t.offset) :: ts) :
    step s = .next { s with turns := ts, reply := some (valueAt t (setTurns ts s)) } :=
  step_readAt_exact t.offset_lt t.offset_mod_four (targetAt_offset t) hexact h

theorem step_writeTarget {s : State} {ts : List Turn} {v : Word} (t : Target)
    (h : s.turns = .host (writeAt s.params t.offset v) :: ts) :
    step s = .next (answer none (writeTarget t (BitVec.ofNat 12 t.offset) v (setTurns ts s))) :=
  step_writeAt t.offset_lt t.offset_mod_four (targetAt_offset t) h

/-! ## Reads of the data windows -/

/-- A window word is its four bytes, the lowest in bits 7:0 (R72, R74). -/
theorem wordOf_eq_bytes (v : Wide) (k : Fin 4) :
    wordOf v k = byteOf v (4 * k.val + 3) ++ byteOf v (4 * k.val + 2) ++ byteOf v (4 * k.val + 1) ++
      byteOf v (4 * k.val) := by
  apply BitVec.eq_of_getLsbD_eq
  intro i hi
  simp only [wordOf, BitVec.getLsbD_extractLsb', BitVec.getLsbD_append, byteOf_getLsbD]
  split_ifs
  all_goals
    congr 1
    · simp; omega
    · congr 1; omega

/-- Settles O15: each window offset is that of its word, and an idle read answers the word's value. -/
theorem windowReadsAreLittleEndian : Obligations.WindowReadsAreLittleEndian := by
  refine fun s ts hidle => ⟨fun i k h => ?_, fun i h => ?_, fun k h => ?_⟩
  · rw [← wordOf_eq_bytes]
    exact step_readTarget_exact (.wWindow i k) (.inl hidle) h
  · exact step_readTarget_exact (.xWindow i) (.inl hidle) h
  · rw [← wordOf_eq_bytes]
    exact step_readTarget_exact (.lWindow k) (.inl hidle) h

/-! ## Writes of the data windows -/

@[simp] theorem valueAt_setTurns (t : Target) (ts : List Turn) (s : State) :
    valueAt t (setTurns ts s) = valueAt t s := by
  cases t <;> rfl

@[simp] theorem valueAt_answer (t : Target) (v : Option Word) (s : State) :
    valueAt t (answer v s) = valueAt t s := by
  cases t <;> rfl

/-- An idle read answers the value that the word holds. -/
theorem exists_step_readTarget {s : State} {ts : List Turn} (t : Target) (hidle : s.pend = none)
    (h : s.turns = .host (readAt s.params t.offset) :: ts) :
    ∃ u, step s = .next u ∧ u.reply = some (valueAt t s) :=
  ⟨_, step_readTarget_exact t (.inl hidle) h, congrArg some (valueAt_setTurns t ts s)⟩

/-- What a write of a window word stores while BUSY = 0 (R72). -/
theorem writeWindow_idle {off : BitVec 12} {store s : State} (hidle : s.pend = none) :
    writeWindow off store s = store := by
  simp [writeWindow, busy_eq, hidle]

section
variable {t u : Target} {off : BitVec 12} {v : Word} {s : State}

/-- A window word written while idle holds the value written. -/
theorem valueAt_writeTarget_same (ht : 0x040 ≤ t.offset) (hidle : s.pend = none) :
    valueAt t (writeTarget t off v s) = v := by
  cases t with
  | id | ctrl | status | cmd | callcnt | errinfo => exact absurd ht (by decide)
  | wWindow i k => simp [writeTarget, writeWindow_idle hidle, valueAt, wordOf_withWord_same]
  | xWindow i => simp [writeTarget, writeWindow_idle hidle, valueAt]
  | lWindow k => simp [writeTarget, writeWindow_idle hidle, valueAt, wordOf_withWord_same]

theorem wordOf_writeW_of_ne {i j : WReg} {k m : Fin 4} (hne : Target.wWindow j m ≠ .wWindow i k) :
    wordOf (readW j (writeW i (withWord (readW i s) k v) s)) m = wordOf (readW j s) m := by
  by_cases hreg : j = i
  · subst hreg
    have hword : m ≠ k := fun h => hne (by rw [h])
    rw [readW_writeW_same, wordOf_withWord_of_ne _ _ _ _ hword]
  · rw [readW_writeW_of_ne _ _ hreg]

/-- Every other word holds what it held before, be it of the same register or of another one. -/
theorem valueAt_writeTarget_of_ne (ht : 0x040 ≤ t.offset) (hidle : s.pend = none) (hne : u ≠ t) :
    valueAt u (writeTarget t off v s) = valueAt u s := by
  cases t with
  | id | ctrl | status | cmd | callcnt | errinfo => exact absurd ht (by decide)
  | wWindow i k =>
    rw [writeTarget, writeWindow_idle hidle]
    cases u with
    | wWindow j m => exact wordOf_writeW_of_ne hne
    | _ => rfl
  | xWindow i =>
    rw [writeTarget, writeWindow_idle hidle]
    cases u with
    | xWindow j => exact readX_writeX_of_ne j i (fun h => hne (by rw [h])) v s
    | _ => rfl
  | lWindow k =>
    rw [writeTarget, writeWindow_idle hidle]
    cases u with
    | lWindow m => exact wordOf_withWord_of_ne _ _ _ _ fun h => hne (by rw [h])
    | _ => rfl

/-- An idle write of a window word changes no register outside W, X and L. -/
theorem writeTarget_window_frame (ht : 0x040 ≤ t.offset) (hidle : s.pend = none) :
    writeTarget t off v s = { s with
      w := (writeTarget t off v s).w
      x := (writeTarget t off v s).x
      l := (writeTarget t off v s).l } := by
  cases t with
  | id | ctrl | status | cmd | callcnt | errinfo => exact absurd ht (by decide)
  | wWindow i k | xWindow i | lWindow k => rw [writeTarget, writeWindow_idle hidle]; rfl

end

/-- An idle write of a window word, as the next accesses see it. -/
theorem step_writeWindow {s : State} {ts : List Turn} {v : Word} {t : Target} (ht : 0x040 ≤ t.offset)
    (hidle : s.pend = none) (h : s.turns = .host (writeAt s.params t.offset v) :: ts) :
    ∃ s', step s = .next s' ∧ valueAt t s' = v ∧ (∀ u ≠ t, valueAt u s' = valueAt u s) ∧
      s' = { s with turns := ts, reply := none, w := s'.w, x := s'.x, l := s'.l } := by
  refine ⟨_, step_writeTarget t h, ?_, fun u hne => ?_, ?_⟩
  · rw [valueAt_answer]
    exact valueAt_writeTarget_same ht hidle
  · rw [valueAt_answer, valueAt_writeTarget_of_ne (s := setTurns ts s) ht hidle hne, valueAt_setTurns]
  · exact congrArg (answer none) (writeTarget_window_frame (s := setTurns ts s) ht hidle)

/-- Settles O14: an idle window write changes the word it writes and no other, and each word has one
aligned offset. -/
theorem windowWriteReadsBack : Obligations.WindowWriteReadsBack := by
  intro s ts p q v hidle hp hp' hpalign hq hq' hqalign hturns
  obtain ⟨tp, rfl⟩ := exists_target_of_window hp hp' hpalign
  obtain ⟨tq, rfl⟩ := exists_target_of_window hq hq' hqalign
  obtain ⟨t, hwrite, hsame, hother, hframe⟩ := step_writeWindow hp hidle hturns
  obtain ⟨u, hread, hu⟩ := exists_step_readTarget (s := t) (ts := ts) tq
    (by rw [hframe]; exact hidle) (by rw [hframe])
  obtain ⟨before, hreadBefore, hbefore⟩ := exists_step_readTarget
    (s := setTurns (.host (readAt s.params tq.offset) :: ts) s) (ts := ts) tq hidle rfl
  refine ⟨t, u, before, hwrite, hread, hreadBefore, ?_, hframe⟩
  rw [hu, hbefore, valueAt_setTurns]
  by_cases heq : tq = tp
  · rw [heq, if_pos rfl, hsame]
  · rw [if_neg (offset_injective.ne heq), hother tq heq]

/-! ## Accesses while a command runs -/

/-- The command that runs in `s` is undisturbed in `t` (R78, R246): the latch, the CMD readback, the data,
the generator and NI. -/
def runningUndisturbed (s t : State) : Prop :=
  t.pend = s.pend ∧ t.cmd = s.cmd ∧ sameData s t ∧ sameGenerator s t ∧ t.ni = s.ni ∧ t.turns = s.turns

theorem AccessRejected.runningUndisturbed {kind : AccessKind} {e : ECode} {info : Word} {s t : State}
    (h : AccessRejected kind e info s t) : runningUndisturbed s t := by
  rw [h]
  simp [Machine.runningUndisturbed, sameData, sameGenerator]

/-- While busy a performed access is a read, a CTRL write or a STATUS write (R78). -/
theorem AccessPerformed.runningUndisturbed {a : Access} {off : BitVec 12} {s t : State}
    (h : AccessPerformed a off s t) (hbusy : s.busy = true)
    (hreset : ∀ v, a.width = .bits32 → off.toNat = 0x004 → a.kind = .write v → v.getLsbD 0 = false) :
    runningUndisturbed s t := by
  cases h with
  | softReset v hwidth hoff hkind hsrst =>
    rw [hreset v hwidth hoff hkind] at hsrst
    cases hsrst
  | statusWrite v => rw [writeStatus_eq]; exact ⟨rfl, rfl, ⟨rfl, rfl⟩, ⟨rfl, rfl⟩, rfl, rfl⟩
  | read _ | readFree | setIe _ => exact ⟨rfl, rfl, ⟨rfl, rfl⟩, ⟨rfl, rfl⟩, rfl, rfl⟩
  | accepted _ _ hidle | wroteW _ _ hidle | wroteX _ _ hidle | wroteL _ hidle => cases hbusy.symm.trans hidle

/-- A turn that is no reset turn carries no CTRL write with SRST = 1 (R280). -/
theorem srst_eq_false_of_not_isResetTurn {p : Params} {a : Access} {off : Nat} (hoff : off < 4096)
    (haddr : a.addr = p.base + off) (hreset : ¬ isResetTurn p (.host a)) {v : Word} (hwidth : a.width = .bits32)
    (hctrl : (BitVec.ofNat 12 off).toNat = 0x004) (hkind : a.kind = .write v) : v.getLsbD 0 = false := by
  rw [BitVec.toNat_ofNat, Nat.mod_eq_of_lt hoff] at hctrl
  subst hctrl
  exact Bool.eq_false_iff.2 fun hsrst => hreset ⟨haddr, hwidth, v, hkind, hsrst⟩

theorem busy_of_pend_ne_none {s : State} (h : s.pend ≠ none) : s.busy = true :=
  Option.isSome_iff_ne_none.2 h

/-- Settles O21: rejected or performed, an access that is no reset leaves the running command alone. -/
theorem accessesDoNotDisturbARunningCommand : Obligations.AccessesDoNotDisturbARunningCommand := by
  intro s a ts hpend hturns hin hreset
  obtain ⟨off, hoff, haddr, hstep⟩ := step_inWindow hturns hin
  have hrun : runningUndisturbed (setTurns ts s) (windowAccess a (BitVec.ofNat 12 off) (setTurns ts s)) := by
    obtain ⟨e, info, -, hrejected⟩ | ⟨-, hperformed⟩ :=
      windowAccess_cases a (BitVec.ofNat 12 off) (setTurns ts s)
    · exact hrejected.runningUndisturbed
    · exact hperformed.runningUndisturbed (busy_of_pend_ne_none hpend)
        fun v => srst_eq_false_of_not_isResetTurn hoff haddr hreset
  obtain ⟨hpend, hcmd, ⟨hw, hx⟩, ⟨hl, hcount⟩, hni, hts⟩ := hrun
  exact ⟨_, hstep, hpend, hcmd, hw, hx, hl, hcount, hni, hts⟩

/-! ## Accesses while busy, from two states with different data -/

/-- The states differ in W, X, L and CALLCNT alone. -/
def sameButData (s s' : State) : Prop :=
  ∃ w x l n, s' = { s with w := w, x := x, l := l, callcnt := n }

section
variable {s s' : State}

theorem sameButData.busy_eq (h : sameButData s s') : s'.busy = s.busy := by
  obtain ⟨w, x, l, n, rfl⟩ := h; rfl

theorem sameButData.answer (h : sameButData s s') (v : Option Word) :
    sameButData (answer v s) (answer v s') := by
  obtain ⟨w, x, l, n, rfl⟩ := h; exact ⟨w, x, l, n, rfl⟩

theorem sameButData.answerFree (h : sameButData s s') : sameButData (answerFree s) (answerFree s') := by
  obtain ⟨w, x, l, n, rfl⟩ := h; exact ⟨w, x, l, n, rfl⟩

theorem sameButData.recordError (h : sameButData s s') (e : ECode) (info : Word) :
    sameButData (recordError e info s) (recordError e info s') := by
  obtain ⟨w, x, l, n, rfl⟩ := h
  refine ⟨w, x, l, n, ?_⟩
  cases herr : s.err <;> simp [Machine.recordError, herr]

theorem sameButData.writeCtrl (h : sameButData s s') (v : Word) :
    sameButData (writeCtrl v s) (writeCtrl v s') := by
  obtain ⟨w, x, l, n, rfl⟩ := h
  unfold Machine.writeCtrl
  cases v.getLsbD 0
  · exact ⟨w, x, l, n, rfl⟩
  · exact ⟨_, _, _, _, rfl⟩

theorem sameButData.writeStatus (h : sameButData s s') (v : Word) :
    sameButData (writeStatus v s) (writeStatus v s') := by
  obtain ⟨w, x, l, n, rfl⟩ := h
  rw [writeStatus_eq, writeStatus_eq]
  exact ⟨w, x, l, n, rfl⟩

theorem sameButData.issueCommand (h : sameButData s s') (hbusy : s.busy = true) (c : Word) :
    sameButData (issueCommand c s) (issueCommand c s') := by
  simpa only [Machine.issueCommand, h.busy_eq, hbusy, if_true] using h.recordError .busyWrite c

theorem sameButData.writeWindow (h : sameButData s s') (hbusy : s.busy = true) (off : BitVec 12)
    (store store' : State) : sameButData (writeWindow off store s) (writeWindow off store' s') := by
  simpa only [Machine.writeWindow, h.busy_eq, hbusy, if_true] using
    h.recordError .busyWrite (accessInfo true off)

theorem sameButData.writeTarget (h : sameButData s s') (hbusy : s.busy = true) (t : Target) (off : BitVec 12)
    (v : Word) : sameButData (writeTarget t off v s) (writeTarget t off v s') := by
  cases t with
  | id | callcnt | errinfo => exact h.recordError _ _
  | ctrl => exact h.writeCtrl v
  | status => exact h.writeStatus v
  | cmd => exact h.issueCommand hbusy v
  | wWindow i k | xWindow i | lWindow k => exact h.writeWindow hbusy off _ _

/-- A word that reads exactly while busy (R78) holds none of W, X, L and CALLCNT. -/
theorem sameButData.valueAt_eq (h : sameButData s s') {t : Target} (ht : freeWhileBusy t = false) :
    valueAt t s' = valueAt t s := by
  obtain ⟨w, x, l, n, rfl⟩ := h
  cases t with
  | id | ctrl | status | cmd | errinfo => rfl
  | callcnt | wWindow i k | xWindow i | lWindow k => cases ht

/-- While busy a read answers a free value, the same in both states (log 5), or an exact one. -/
theorem sameButData.readTarget (h : sameButData s s') (hbusy : s.busy = true) (t : Target) :
    sameButData (readTarget t s) (readTarget t s') := by
  unfold Machine.readTarget
  rw [h.busy_eq, hbusy]
  cases hfree : freeWhileBusy t with
  | true => exact h.answerFree
  | false => rw [h.valueAt_eq hfree]; exact h.answer _

theorem sameButData.hostRead (h : sameButData s s') (hbusy : s.busy = true) (width : AccessWidth)
    (off : BitVec 12) : sameButData (hostRead width off s) (hostRead width off s') := by
  unfold Machine.hostRead
  split
  · exact (h.recordError _ _).answer _
  · split
    · exact (h.recordError _ _).answer _
    · exact h.readTarget hbusy _

theorem sameButData.hostWrite (h : sameButData s s') (hbusy : s.busy = true) (width : AccessWidth)
    (off : BitVec 12) (v : Word) : sameButData (hostWrite width off v s) (hostWrite width off v s') := by
  unfold Machine.hostWrite
  split
  · exact (h.recordError _ _).answer _
  · split
    · exact (h.recordError _ _).answer _
    · exact (h.writeTarget hbusy _ off v).answer _

theorem sameButData.windowAccess (h : sameButData s s') (hbusy : s.busy = true) (a : Access)
    (off : BitVec 12) : sameButData (windowAccess a off s) (windowAccess a off s') := by
  unfold Machine.windowAccess
  cases a.kind with
  | read => exact h.hostRead hbusy a.width off
  | write v => exact h.hostWrite hbusy a.width off v

end

/-- Settles O22: an access keeps the two states equal but for the data registers, which no answer and no
control register shows. -/
theorem busyAccessesRevealNoData : Obligations.BusyAccessesRevealNoData := by
  intro s a ts w' x' l' n' hpend hturns hin
  obtain ⟨off, hoff, haddr, hstep⟩ := step_inWindow hturns hin
  have hstep' := step_windowAccess (s := { s with w := w', x := x', l := l', callcnt := n' })
    hturns haddr hoff
  have hsame : sameButData (setTurns ts s)
      (setTurns ts { s with w := w', x := x', l := l', callcnt := n' }) := ⟨w', x', l', n', rfl⟩
  obtain ⟨w, x, l, n, ht⟩ :=
    hsame.windowAccess (busy_of_pend_ne_none hpend) a (BitVec.ofNat 12 off)
  refine ⟨_, _, hstep, hstep', ?_⟩
  rw [ht]
  exact ⟨rfl, rfl, rfl, rfl, rfl, rfl⟩

end Sys2Proof.Machine

namespace Sys2Proof

/-! ## Encoding a decoded word -/

/-- Where a word has 0 in every bit of a mask, a field that the mask covers is 0. -/
theorem extractLsb'_eq_zero_of_and {c mask : Word} (h : c &&& mask = 0#32) {start len : Nat}
    (hmask : mask.extractLsb' start len = BitVec.allOnes len) : c.extractLsb' start len = 0#len := by
  calc c.extractLsb' start len = (c &&& mask).extractLsb' start len := by
        rw [BitVec.extractLsb'_and, hmask, BitVec.and_allOnes]
    _ = 0#len := by rw [h, BitVec.extractLsb'_zero]

theorem fieldRd_eq_zero_of_and {c mask : Word} (h : c &&& mask = 0#32)
    (hmask : mask.extractLsb' 23 3 = BitVec.allOnes 3) : fieldRd c = 0 :=
  congrArg BitVec.toFin (extractLsb'_eq_zero_of_and h hmask)

theorem fieldRs1_eq_zero_of_and {c mask : Word} (h : c &&& mask = 0#32)
    (hmask : mask.extractLsb' 20 3 = BitVec.allOnes 3) : fieldRs1 c = 0 :=
  congrArg BitVec.toFin (extractLsb'_eq_zero_of_and h hmask)

theorem fieldRs2_eq_zero_of_and {c mask : Word} (h : c &&& mask = 0#32)
    (hmask : mask.extractLsb' 17 3 = BitVec.allOnes 3) : fieldRs2 c = 0 :=
  congrArg BitVec.toFin (extractLsb'_eq_zero_of_and h hmask)

theorem fieldImm_eq_zero_of_and {c mask : Word} (h : c &&& mask = 0#32)
    (hmask : mask.extractLsb' 0 16 = BitVec.allOnes 16) : fieldImm c = 0#16 :=
  extractLsb'_eq_zero_of_and h hmask

/-- A word is its fields in the layout of R102, with the bit Z between RS2 and IMM16. -/
theorem fields_append (c : Word) :
    fieldOpc c ++ c.extractLsb' 23 3 ++ c.extractLsb' 20 3 ++ c.extractLsb' 17 3 ++ c.extractLsb' 16 1
      ++ fieldImm c = c := by
  apply BitVec.eq_of_getLsbD_eq
  intro i hi
  simp only [fieldOpc, fieldImm, BitVec.getLsbD_append, BitVec.getLsbD_extractLsb']
  interval_cases i <;> simp

/-- A word whose unused fields include Z is put together again from its opcode and its fields. -/
theorem commandWord_fields {c unused : Word} {opc : BitVec 6} (hopc : (fieldOpc c).toNat = opc.toNat)
    (hu : c &&& unused = 0#32) (hz : unused.extractLsb' 16 1 = BitVec.allOnes 1) :
    commandWord opc (fieldRd c) (fieldRs1 c) (fieldRs2 c) (fieldImm c) = c := by
  rw [← BitVec.eq_of_toNat_eq hopc, commandWord, ← extractLsb'_eq_zero_of_and hu hz]
  exact fields_append c

section
variable {c : Word} {opc : BitVec 6}

theorem commandWord_of_unusedThree (hopc : (fieldOpc c).toNat = opc.toNat) (hu : c &&& unusedThree = 0#32) :
    commandWord opc (fieldRd c) (fieldRs1 c) (fieldRs2 c) 0#16 = c := by
  have hword := commandWord_fields hopc hu (by decide)
  rwa [fieldImm_eq_zero_of_and hu (by decide)] at hword

theorem commandWord_of_unusedTwo (hopc : (fieldOpc c).toNat = opc.toNat) (hu : c &&& unusedTwo = 0#32) :
    commandWord opc (fieldRd c) (fieldRs1 c) 0 0#16 = c := by
  have hword := commandWord_fields hopc hu (by decide)
  rwa [fieldRs2_eq_zero_of_and hu (by decide), fieldImm_eq_zero_of_and hu (by decide)] at hword

theorem commandWord_of_unusedRdOnly (hopc : (fieldOpc c).toNat = opc.toNat)
    (hu : c &&& unusedRdOnly = 0#32) : commandWord opc (fieldRd c) 0 0 0#16 = c := by
  have hword := commandWord_fields hopc hu (by decide)
  rwa [fieldRs1_eq_zero_of_and hu (by decide), fieldRs2_eq_zero_of_and hu (by decide),
    fieldImm_eq_zero_of_and hu (by decide)] at hword

theorem commandWord_of_unusedRs1Only (hopc : (fieldOpc c).toNat = opc.toNat)
    (hu : c &&& unusedRs1Only = 0#32) : commandWord opc 0 (fieldRs1 c) 0 0#16 = c := by
  have hword := commandWord_fields hopc hu (by decide)
  rwa [fieldRd_eq_zero_of_and hu (by decide), fieldRs2_eq_zero_of_and hu (by decide),
    fieldImm_eq_zero_of_and hu (by decide)] at hword

theorem commandWord_of_unusedLcall (hopc : (fieldOpc c).toNat = opc.toNat)
    (hu : c &&& unusedLcall = 0#32) : commandWord opc (fieldRd c) 0 0 (fieldImm c) = c := by
  have hword := commandWord_fields hopc hu (by decide)
  rwa [fieldRs1_eq_zero_of_and hu (by decide), fieldRs2_eq_zero_of_and hu (by decide)] at hword

theorem commandWord_of_unusedAll (hopc : (fieldOpc c).toNat = opc.toNat) (hu : c &&& unusedAll = 0#32) :
    commandWord opc 0 0 0 0#16 = c := by
  have hword := commandWord_fields hopc hu (by decide)
  rwa [fieldRd_eq_zero_of_and hu (by decide), fieldRs1_eq_zero_of_and hu (by decide),
    fieldRs2_eq_zero_of_and hu (by decide), fieldImm_eq_zero_of_and hu (by decide)] at hword

end

/-- Where the operand check of R104 passes, the command is the one that the opcode names. -/
theorem encode_eq_of_decodeOperands {c unused : Word} {i j : Instr} (h : decodeOperands c unused j = .command i)
    (hencode : c &&& unused = 0#32 → encode j = c) (hwf : j.wellFormed = true) :
    encode i = c ∧ i.wellFormed = true := by
  unfold decodeOperands at h
  split_ifs at h with hu
  obtain rfl : j = i := Decoded.command.inj h
  exact ⟨hencode hu, hwf⟩

/-- Every bit of a word that decodes is in its opcode, in an operand or in an unused field, which is 0
(R104, R105). -/
theorem encode_eq_of_decode {c : Word} {i : Instr} (h : decode c = .command i) :
    encode i = c ∧ i.wellFormed = true := by
  unfold decode at h
  split at h
  case h_14 hopc =>
    split_ifs at h with hcount
    exact encode_eq_of_decodeOperands h (commandWord_of_unusedLcall hopc) (by simpa [Instr.wellFormed] using hcount)
  case h_1 hopc | h_11 hopc => exact encode_eq_of_decodeOperands h (commandWord_of_unusedAll hopc) rfl
  case h_12 hopc => exact encode_eq_of_decodeOperands h (commandWord_of_unusedRs1Only hopc) rfl
  case h_13 hopc | h_15 hopc => exact encode_eq_of_decodeOperands h (commandWord_of_unusedRdOnly hopc) rfl
  case h_2 hopc | h_3 hopc | h_4 hopc | h_5 hopc | h_9 hopc | h_10 hopc =>
    exact encode_eq_of_decodeOperands h (commandWord_of_unusedTwo hopc) rfl
  case h_6 hopc | h_7 hopc | h_8 hopc | h_16 hopc | h_17 hopc =>
    exact encode_eq_of_decodeOperands h (commandWord_of_unusedThree hopc) rfl
  case h_18 => cases h

end Sys2Proof

namespace Sys2Proof.Machine

/-- Settles O6: the decoder reads back each field that the encoder wrote. -/
theorem decodeOfEncodeIsIdentity : Obligations.DecodeOfEncodeIsIdentity := decode_encode

/-- Settles O7: the fields that the opcode's decoding reads and the unused ones, which it finds 0, are the
whole word. -/
theorem encodeOfDecodeIsIdentity : Obligations.EncodeOfDecodeIsIdentity := fun _ _ => encode_eq_of_decode

/-! ## The opcode table as a classification -/

theorem opcodeTable_mnemonic_injective : ∀ row ∈ opcodeTable, ∀ row' ∈ opcodeTable,
    row.mnemonic = row'.mnemonic → row = row' := by decide

theorem matchesRow_iff_decode {row : OpcodeRow} (hrow : row ∈ opcodeTable) (c : Word) :
    matchesRow c row ↔ ∃ i, decode c = .command i ∧ i.mnemonic = row.mnemonic := by
  constructor
  · intro hfit
    have hopc : fieldOpc c = row.opc := ((and_mask_eq_pattern_iff hrow c).1 hfit.1).1
    obtain ⟨-, i, hi, hd⟩ | ⟨hmisfit, -⟩ := decode_of_row hrow hopc
    · exact ⟨i, hd, hi⟩
    · exact absurd hfit hmisfit
  · rintro ⟨i, hd, hi⟩
    obtain ⟨-, h⟩ | ⟨-, row', hrow', hfit, j, hj, h⟩ | ⟨-, -, h⟩ := decode_cases c
    · cases h.symm.trans hd
    · obtain rfl : j = i := Decoded.command.inj (h.symm.trans hd)
      obtain rfl := opcodeTable_mnemonic_injective row' hrow' row hrow (hj.symm.trans hi)
      exact hfit
    · cases h.symm.trans hd

/-- Settles O8: the three cases of `decode_cases` exclude one another, so each is known by its answer. -/
theorem wordsAreClassifiedByTheOpcodeTable : Obligations.WordsAreClassifiedByTheOpcodeTable := by
  intro c
  refine ⟨fun row hrow => matchesRow_iff_decode hrow c, ?_⟩
  obtain ⟨hr, hd⟩ | ⟨hr, row, hrow, hfit, i, -, hd⟩ | ⟨hr, hmisfit, hd⟩ := decode_cases c
  · rw [hr, hd]; simp
  · have hex : ∃ row ∈ opcodeTable, matchesRow c row := ⟨row, hrow, hfit⟩
    rw [hr, hd]; simp [hex]
  · rw [hr, hd]; simp [hmisfit]

/-- Settles O9: the words are computed from the layout, and the decoder gives each command back. -/
theorem encodingExamples : Obligations.EncodingExamples := by
  have hmvm3 : encode (.mvm3 2 1 0) = 0x15100000#32 := by decide
  have hlcall : encode (.lcall 0 1000#16) = 0x4C0003E8#32 := by decide
  have hlock : encode (.lock 3 1 2) = 0x61940000#32 := by decide
  refine ⟨by decide, hmvm3, ?_, by decide, hlcall, ?_, by decide, hlock, ?_⟩
  · rw [← hmvm3]; exact decode_encode _ rfl
  · rw [← hlcall]; exact decode_encode _ (by decide)
  · rw [← hlock]; exact decode_encode _ rfl

/-- Settles O12: the CMD write is accepted, since its word decodes and the latch is empty. -/
theorem commandWriteIsAccepted : Obligations.CommandWriteIsAccepted :=
  fun _ _ _ hi hidle hturns => step_writeCommand hi hidle hturns

end Sys2Proof.Machine

namespace Sys2Proof.Machine

/-! ## The scalar inverse modulo 256 -/

theorem odd_of_mul_mod_eq_one {a x : Nat} (h : a * x % 256 = 1) : a % 2 = 1 := by
  have hodd : Odd (a * x) := Nat.odd_iff.2 (by omega)
  exact Nat.odd_iff.1 (Nat.odd_mul.1 hodd).1

theorem coprime_of_odd {a : Nat} (h : a % 2 = 1) : Nat.Coprime a 256 :=
  (Nat.odd_iff.2 h).coprime_two_right.pow_right 8

/-- R122: the scan of 1..255 finds an inverse exactly where the byte is odd, and else ends in the sentinel. -/
theorem inv256_cases (a : Byte) :
    (a.toNat % 2 = 0 ∧ inv256 a = 0#8) ∨
    (a.toNat % 2 = 1 ∧ inv256 a ≠ 0#8 ∧ a.toNat * (inv256 a).toNat % 256 = 1) := by
  cases hscan : (List.range' 1 255).find? (fun x => a.toNat * x % 256 == 1) with
  | none =>
    refine .inl ⟨?_, by simp [inv256, hscan]⟩
    by_contra heven
    obtain ⟨x, hx, hinv⟩ := Nat.exists_mul_mod_eq_one_of_coprime
      (coprime_of_odd (Nat.mod_two_ne_zero.1 heven)) (by norm_num)
    have hx0 : x ≠ 0 := by rintro rfl; simp at hinv
    have hmiss := List.find?_eq_none.1 hscan x (List.mem_range'_1.2 ⟨by omega, by omega⟩)
    exact hmiss (by simpa using hinv)
  | some x =>
    have hinv : a.toNat * x % 256 = 1 := by simpa using List.find?_some hscan
    have hx : 1 ≤ x ∧ x < 256 := by simpa using List.mem_of_find?_eq_some hscan
    have hval : (inv256 a).toNat = x := by
      rw [inv256, hscan]
      exact Nat.mod_eq_of_lt hx.2
    refine .inr ⟨odd_of_mul_mod_eq_one hinv, fun h0 => ?_, by rw [hval, hinv]⟩
    rw [h0, BitVec.toNat_zero] at hval
    omega

/-- An odd number cancels modulo 256. -/
theorem eq_of_mul_mod_eq_one {a x y : Nat} (hx : a * x % 256 = 1) (hy : a * y % 256 = 1) (hx' : x < 256)
    (hy' : y < 256) : x = y := by
  have hmod : a * x ≡ a * y [MOD 256] := hx.trans hy.symm
  exact (Nat.ModEq.cancel_left_of_coprime (coprime_of_odd (odd_of_mul_mod_eq_one hx)).symm hmod).eq_of_lt_of_lt
    hx' hy'

/-- Settles O28: the scan finds an inverse of an odd byte, and two inverses below 256 are equal. -/
theorem scalarInverseIsUnique : Obligations.ScalarInverseIsUnique := by
  intro a
  have hlt := (inv256 a).isLt
  obtain ⟨heven, h0⟩ | ⟨hodd, hne, hinv⟩ := inv256_cases a
  · exact ⟨fun hodd => by omega, fun _ => h0⟩
  · have hpos : (inv256 a).toNat ≠ 0 := fun h => hne (BitVec.eq_of_toNat_eq h)
    exact ⟨fun _ => ⟨by omega, by omega, hinv, fun y _ hy hyinv => eq_of_mul_mod_eq_one hyinv hinv (by omega) hlt⟩,
      fun heven => by omega⟩

/-! ## Registers a command writes -/

theorem getElem_w_writeW_same (d : WReg) (v : Wide) (s : State) : (writeW d v s).w[d] = v :=
  readW_writeW_same d v s

theorem getElem_x_writeX_same (d : XReg) (v : Word) (s : State) : (writeX d v s).x[d] = v :=
  readX_writeX_same d v s

theorem sameWBut_writeW (d : WReg) (v : Wide) (s : State) : sameWBut d s (writeW d v s) :=
  fun i hi => readW_writeW_of_ne i d hi v s

theorem sameXBut_writeX (d : XReg) (v : Word) (s : State) : sameXBut d s (writeX d v s) :=
  fun i hi => readX_writeX_of_ne i d hi v s

theorem wordOfByte_toNat (b : Byte) : (wordOfByte b).toNat = b.toNat :=
  BitVec.toNat_setWidth_of_le (by norm_num)

/-- R123: SINV takes the inverse of the source's low byte, which is one of the whole word modulo 256. -/
theorem execSinv_cases (d src : XReg) (s : State) :
    (s.x[src].toNat % 2 = 0 ∧ execSinv d src s = .next (complete (setNi true (writeX d 0#32 s)))) ∨
    (s.x[src].toNat % 2 = 1 ∧ ∃ r : Byte, s.x[src].toNat * r.toNat % 256 = 1 ∧
      execSinv d src s = .next (complete (setNi false (writeX d (wordOfByte r) s)))) := by
  have hlow : ((readX src s).setWidth 8).toNat = s.x[src].toNat % 256 := BitVec.toNat_setWidth ..
  obtain ⟨heven, h0⟩ | ⟨hodd, hne, hinv⟩ := inv256_cases ((readX src s).setWidth 8)
  · exact .inl ⟨by omega, by rw [execSinv, h0]; rfl⟩
  · rw [hlow, Nat.mod_mul_mod] at hinv
    exact .inr ⟨by omega, _, hinv, by simp only [execSinv, beq_eq_false_iff_ne.2 hne]⟩

/-- Settles O29: by the parity of the source, which is that of its low byte. -/
theorem sinvWritesTheInverse : Obligations.SinvWritesTheInverse := by
  intro d src s
  obtain ⟨heven, hexec⟩ | ⟨hodd, r, hinv, hexec⟩ := execSinv_cases d src s
  · exact ⟨_, hexec, ⟨rfl, rfl⟩, fun hodd => by omega, fun _ => ⟨rfl, getElem_x_writeX_same d _ s⟩,
      sameXBut_writeX d _ s, rfl, ⟨rfl, rfl⟩, exec_next_sameControl (i := .sinv d src) hexec⟩
  · have hdest : (complete (setNi false (writeX d (wordOfByte r) s))).x[d].toNat = r.toNat := by
      rw [complete_x, setNi_x, getElem_x_writeX_same, wordOfByte_toNat]
    exact ⟨_, hexec, ⟨rfl, rfl⟩, fun _ => ⟨rfl, by rw [hdest]; exact r.isLt, by rw [hdest]; exact hinv⟩,
      fun heven => by omega, sameXBut_writeX d _ s, rfl, ⟨rfl, rfl⟩,
      exec_next_sameControl (i := .sinv d src) hexec⟩

/-! ## Residues, and M3 and V3 as matrices and vectors -/

/-- Reduction modulo 256 gives the Euclidean residue (R10, R120). -/
theorem residue_toNat (z : ℤ) : ((residue z).toNat : ℤ) = z % 256 := by
  simp only [residue, BitVec.toNat_ofInt]
  omega

theorem cast_residue_toNat (z : ℤ) : ((residue z).toNat : ZMod 256) = z := by
  have h := congrArg (Int.cast (R := ZMod 256)) (residue_toNat z)
  exact_mod_cast h.trans (ZMod.intCast_mod z 256)

/-- An M3 as an integer matrix (R120). -/
def intMatrix (M : M3) : Matrix (Fin 3) (Fin 3) ℤ := Matrix.of (entryInt M)

/-- An M3 as a matrix over Z/256 (R120). -/
def modMatrix (M : M3) : Matrix (Fin 3) (Fin 3) (ZMod 256) := Matrix.of fun i j => ((M i j).toNat : ZMod 256)

/-- A V3 as a vector over Z/256 (R120). -/
def modVec (u : V3) : Fin 3 → ZMod 256 := fun i => ((u i).toNat : ZMod 256)

theorem intMatrix_m3Of (v : Wide) : intMatrix (m3Of v) = ringMatrix v := rfl

theorem modMatrix_m3Of (v : Wide) : modMatrix (m3Of v) = ringMatrixMod v := rfl

theorem modVec_v3Of (v : Wide) : modVec (v3Of v) = ringVecMod v := rfl

theorem byte_eq_of_cast_eq {a b : Byte} (h : (a.toNat : ZMod 256) = b.toNat) : a = b :=
  BitVec.eq_of_toNat_eq (((ZMod.natCast_eq_natCast_iff _ _ 256).1 h).eq_of_lt_of_lt a.isLt b.isLt)

theorem modMatrix_injective : Function.Injective modMatrix := fun _ _ h =>
  funext fun i => funext fun j => byte_eq_of_cast_eq (congrFun (congrFun h i) j)

theorem modVec_injective : Function.Injective modVec := fun _ _ h =>
  funext fun i => byte_eq_of_cast_eq (congrFun h i)

theorem modMatrix_eq_map (M : M3) : modMatrix M = (Int.castRingHom (ZMod 256)).mapMatrix (intMatrix M) := by
  ext i j
  simp [modMatrix, intMatrix, entryInt]

/-! ## M3 and V3 values in a wide register -/

theorem m3Of_wideOfM3 (M : M3) : m3Of (wideOfM3 M) = M := by
  funext i j
  rw [m3Of, wideOfM3, byteOf_wideOfBytes _ _ (by omega)]
  fin_cases i <;> fin_cases j <;> rfl

theorem v3Of_wideOfV3 (u : V3) : v3Of (wideOfV3 u) = u := by
  funext i
  rw [v3Of, wideOfV3, byteOf_wideOfBytes _ _ (by omega)]
  fin_cases i <;> rfl

theorem byteOf_wideOfM3 (M : M3) (i j : Fin 3) : byteOf (wideOfM3 M) (3 * i.val + j.val) = M i j :=
  congrFun (congrFun (m3Of_wideOfM3 M) i) j

/-- The zero fill of R34. -/
theorem zeroFrom_wideOfBytes {bs : List Byte} {n : Nat} (hn : bs.length = n) : zeroFrom n (wideOfBytes bs) := by
  intro k hk hlt
  rw [byteOf_wideOfBytes bs k hlt, List.getD_eq_default _ _ (by omega)]

theorem zeroFrom_wideOfM3 (M : M3) : zeroFrom 9 (wideOfM3 M) := zeroFrom_wideOfBytes rfl

theorem zeroFrom_wideOfV3 (u : V3) : zeroFrom 3 (wideOfV3 u) := zeroFrom_wideOfBytes rfl

/-! ## The determinant -/

/-- R125's expansion along row 0 is the determinant. -/
theorem det3_eq_det (M : M3) : det3 M = (intMatrix M).det := by
  simp only [det3, intMatrix, Matrix.det_fin_three, Matrix.of_apply]
  ring

theorem entryInt_bounds (M : M3) (i j : Fin 3) : 0 ≤ entryInt M i j ∧ entryInt M i j ≤ 255 := by
  have := (M i j).isLt
  simp only [entryInt]
  omega

theorem entryProduct_bounds (M : M3) (a b c a' b' c' : Fin 3) :
    0 ≤ entryInt M a a' * entryInt M b b' * entryInt M c c' ∧
    entryInt M a a' * entryInt M b b' * entryInt M c c' ≤ 16581375 := by
  obtain ⟨ha, ha'⟩ := entryInt_bounds M a a'
  obtain ⟨hb, hb'⟩ := entryInt_bounds M b b'
  obtain ⟨hc, hc'⟩ := entryInt_bounds M c c'
  refine ⟨by positivity, ?_⟩
  calc entryInt M a a' * entryInt M b b' * entryInt M c c' ≤ 255 * 255 * 255 := by gcongr
    _ = 16581375 := by norm_num

/-- The six products of the expansion, three of each sign (R126). -/
theorem det3_eq_signed_products (M : M3) :
    det3 M =
      (entryInt M 0 0 * entryInt M 1 1 * entryInt M 2 2 + entryInt M 0 1 * entryInt M 1 2 * entryInt M 2 0 +
        entryInt M 0 2 * entryInt M 1 0 * entryInt M 2 1) -
      (entryInt M 0 0 * entryInt M 1 2 * entryInt M 2 1 + entryInt M 0 1 * entryInt M 1 0 * entryInt M 2 2 +
        entryInt M 0 2 * entryInt M 1 1 * entryInt M 2 0) := by
  simp only [det3]
  ring

theorem det3_bounds (M : M3) : -49744125 ≤ det3 M ∧ det3 M ≤ 49744125 := by
  rw [det3_eq_signed_products]
  have p1 := entryProduct_bounds M 0 1 2 0 1 2
  have p2 := entryProduct_bounds M 0 1 2 1 2 0
  have p3 := entryProduct_bounds M 0 1 2 2 0 1
  have n1 := entryProduct_bounds M 0 1 2 0 2 1
  have n2 := entryProduct_bounds M 0 1 2 1 0 2
  have n3 := entryProduct_bounds M 0 1 2 2 1 0
  omega

theorem det3_toInt (M : M3) : (BitVec.ofInt 32 (det3 M)).toInt = det3 M := by
  have h := det3_bounds M
  exact BitVec.toInt_ofInt_eq_self (by norm_num) (by omega) (by omega)

/-- Settles O30: entries lie in 0..255, so each sign's three products lie in 0..3 * 255^3. -/
theorem determinantFitsThirtyTwoBits : Obligations.DeterminantFitsThirtyTwoBits := by
  intro M
  obtain ⟨hlo, hhi⟩ := det3_bounds M
  refine ⟨fun a b c a' b' c' => ?_, det3_eq_signed_products M, hlo, hhi, ?_, det3_toInt M⟩
  · obtain ⟨h0, hle⟩ := entryProduct_bounds M a b c a' b' c'
    rwa [abs_of_nonneg h0]
  · rw [abs_lt]
    omega

/-- R127: the outcome of DET3. -/
theorem exec_det3 (d : XReg) (src : WReg) (s : State) : exec (.det3 d src) s =
    .next (complete (writeX d (BitVec.ofInt 32 (det3 (m3Of s.w[src]))) s)) := rfl

/-- Settles O31: the register holds R125's expansion without loss. -/
theorem det3WritesTheExactDeterminant : Obligations.Det3WritesTheExactDeterminant := by
  intro d src s
  refine ⟨_, exec_det3 d src s, ⟨rfl, rfl⟩, ?_, sameXBut_writeX d _ s, rfl, ⟨rfl, rfl⟩, rfl,
    exec_next_sameControl (exec_det3 d src s)⟩
  rw [complete_x, getElem_x_writeX_same, det3_toInt, det3_eq_det, intMatrix_m3Of]

/-! ## The adjugate -/

/-- R128's nine entries are those of the adjugate. -/
theorem adjInt_eq_adjugate (M : M3) (i j : Fin 3) : adjInt M i j = (intMatrix M).adjugate i j := by
  rw [Matrix.adjugate_fin_three]
  fin_cases i <;> fin_cases j <;> simp [adjInt, intMatrix] <;> ring

/-- R129: the outcome of ADJ3. -/
theorem exec_adj3 (d src : WReg) (s : State) : exec (.adj3 d src) s =
    .next (complete (writeW d (wideOfM3 (adj3 (m3Of s.w[src]))) s)) := rfl

/-- Settles O32: each byte is the residue of the adjugate's entry. -/
theorem adj3WritesTheAdjugate : Obligations.Adj3WritesTheAdjugate := by
  intro d src s
  refine ⟨_, exec_adj3 d src s, ⟨rfl, rfl⟩, fun i j => ?_, ?_, sameWBut_writeW d _ s, rfl, ⟨rfl, rfl⟩, rfl,
    exec_next_sameControl (exec_adj3 d src s)⟩ <;> rw [complete_w, getElem_w_writeW_same]
  · rw [byteOf_wideOfM3, adj3, residue_toNat, adjInt_eq_adjugate, intMatrix_m3Of]
  · exact zeroFrom_wideOfM3 _

/-! ## The matrix inverse -/

theorem det_modMatrix (M : M3) : (modMatrix M).det = (det3 M : ZMod 256) := by
  rw [modMatrix_eq_map, ← RingHom.map_det, ← det3_eq_det]
  rfl

theorem adjugate_modMatrix (M : M3) (i j : Fin 3) : (modMatrix M).adjugate i j = (adjInt M i j : ZMod 256) := by
  rw [modMatrix_eq_map, ← RingHom.map_adjugate, adjInt_eq_adjugate]
  rfl

theorem det3_residue_parity (M : M3) : ((residue (det3 M)).toNat : ℤ) % 2 = det3 M % 2 := by
  rw [residue_toNat]
  omega

/-- R130: an odd determinant gives the inverse, by `M * adj M = det M`; an even one has no inverse. -/
theorem invertMod_cases (M : M3) :
    (det3 M % 2 = 0 ∧ invertMod M = none) ∨
    (det3 M % 2 = 1 ∧ ∃ B, invertMod M = some B ∧ modMatrix M * modMatrix B = 1) := by
  have hparity := det3_residue_parity M
  obtain ⟨heven, h0⟩ | ⟨hodd, hne, hinv⟩ := inv256_cases (residue (det3 M))
  · exact .inl ⟨by omega, by simp [invertMod, h0]⟩
  · refine .inr ⟨by omega, _, if_neg hne, ?_⟩
    set dInv := inv256 (residue (det3 M))
    have hunit : (dInv.toNat : ZMod 256) * (modMatrix M).det = 1 := by
      rw [det_modMatrix, ← cast_residue_toNat, mul_comm, ← Nat.cast_mul, ← ZMod.natCast_mod, hinv, Nat.cast_one]
    have hB : modMatrix (fun i j => residue (adjInt M i j * dInv.toNat))
        = (dInv.toNat : ZMod 256) • (modMatrix M).adjugate := by
      ext i j
      rw [Matrix.smul_apply, adjugate_modMatrix, modMatrix, Matrix.of_apply, cast_residue_toNat]
      push_cast
      exact mul_comm _ _
    rw [hB, Matrix.mul_smul, Matrix.mul_adjugate, smul_smul, hunit, one_smul]

theorem invertMod_eq_none_iff {M : M3} : invertMod M = none ↔ det3 M % 2 = 0 := by
  obtain ⟨heven, hnone⟩ | ⟨hodd, B, hB, -⟩ := invertMod_cases M
  · simp [heven, hnone]
  · simp [hodd, hB]

theorem det_mul_of_invertMod {M B : M3} (h : invertMod M = some B) :
    det3 M % 2 = 1 ∧ modMatrix M * modMatrix B = 1 := by
  obtain ⟨-, hnone⟩ | ⟨hodd, C, hC, hmul⟩ := invertMod_cases M
  · cases hnone.symm.trans h
  · obtain rfl : C = B := Option.some.inj (hC.symm.trans h)
    exact ⟨hodd, hmul⟩

/-- R132: the outcome of INV3, by the parity of the determinant. -/
theorem exec_inv3_cases (d src : WReg) (s : State) :
    ((ringMatrix s.w[src]).det % 2 = 0 ∧ exec (.inv3 d src) s = .next (complete (setNi true s))) ∨
    ((ringMatrix s.w[src]).det % 2 = 1 ∧ ∃ R, ringMatrixMod s.w[src] * modMatrix R = 1 ∧
      exec (.inv3 d src) s = .next (complete (setNi false (writeW d (wideOfM3 R) s)))) := by
  rw [← intMatrix_m3Of, ← det3_eq_det, ← modMatrix_m3Of]
  obtain ⟨hnone, hexec⟩ | ⟨R, hR, hexec⟩ := execInv3_cases d src s
  · exact .inl ⟨invertMod_eq_none_iff.1 hnone, hexec⟩
  · obtain ⟨hodd, hmul⟩ := det_mul_of_invertMod hR
    exact .inr ⟨hodd, R, hmul, hexec⟩

/-- Settles O33: by the parity of the determinant; a one-sided inverse of a square matrix is two-sided. -/
theorem inv3WritesTheInverseOrSetsNi : Obligations.Inv3WritesTheInverseOrSetsNi := by
  intro d src s
  obtain ⟨heven, hexec⟩ | ⟨hodd, R, hmul, hexec⟩ := exec_inv3_cases d src s
  · exact ⟨_, hexec, ⟨rfl, rfl⟩, fun hodd => by omega, fun _ => ⟨rfl, rfl⟩, fun _ _ => rfl, rfl, ⟨rfl, rfl⟩,
      exec_next_sameControl hexec⟩
  · refine ⟨_, hexec, ⟨rfl, rfl⟩, fun _ => ⟨rfl, ?_⟩, fun heven => by omega, sameWBut_writeW d _ s, rfl,
      ⟨rfl, rfl⟩, exec_next_sameControl hexec⟩
    rw [complete_w, setNi_w, getElem_w_writeW_same, ← modMatrix_m3Of (wideOfM3 R), m3Of_wideOfM3]
    exact ⟨hmul, mul_eq_one_comm.1 hmul, zeroFrom_wideOfM3 R⟩

/-! ## The matrix-vector product -/

theorem rowSum_le (K : M3) (u : V3) (i : Fin 3) :
    (K i 0).toNat * (u 0).toNat + (K i 1).toNat * (u 1).toNat + (K i 2).toNat * (u 2).toNat ≤ 195075 := by
  have hterm (j : Fin 3) : (K i j).toNat * (u j).toNat ≤ 255 * 255 :=
    Nat.mul_le_mul (Nat.le_of_lt_succ (K i j).isLt) (Nat.le_of_lt_succ (u j).isLt)
  linarith [hterm 0, hterm 1, hterm 2]

theorem matMulVecMod_toNat (K : M3) (u : V3) (i : Fin 3) :
    (matMulVecMod K u i).toNat
      = ((K i 0).toNat * (u 0).toNat + (K i 1).toNat * (u 1).toNat + (K i 2).toNat * (u 2).toNat) % 256 := by
  have h := residue_toNat
    (entryInt K i 0 * (u 0).toNat + entryInt K i 1 * (u 1).toNat + entryInt K i 2 * (u 2).toNat)
  simp only [entryInt] at h
  exact_mod_cast h

/-- Settles O35: the sum is exact, and each of its three terms is at most 255^2. -/
theorem matrixVectorProductFormula : Obligations.MatrixVectorProductFormula :=
  fun K u i => ⟨matMulVecMod_toNat K u i, rowSum_le K u i⟩

theorem modVec_matMulVecMod (K : M3) (u : V3) : modVec (matMulVecMod K u) = (modMatrix K).mulVec (modVec u) := by
  funext i
  simp [modVec, modMatrix, matMulVecMod_toNat, Matrix.mulVec, dotProduct, Fin.sum_univ_three]

/-- R135: the outcome of MVM3. -/
theorem exec_mvm3 (d k v : WReg) (s : State) : exec (.mvm3 d k v) s =
    .next (complete (writeW d (wideOfV3 (matMulVecMod (m3Of s.w[k]) (v3Of s.w[v]))) s)) := rfl

/-- Settles O36: the reduced row sums are the product over Z/256. -/
theorem mvm3WritesTheProduct : Obligations.Mvm3WritesTheProduct := by
  intro d k v s
  refine ⟨_, exec_mvm3 d k v s, ⟨rfl, rfl⟩, ?_, ?_, sameWBut_writeW d _ s, rfl, ⟨rfl, rfl⟩, rfl,
    exec_next_sameControl (exec_mvm3 d k v s)⟩ <;> rw [complete_w, getElem_w_writeW_same]
  · rw [← modVec_v3Of, v3Of_wideOfV3, modVec_matMulVecMod, modMatrix_m3Of, modVec_v3Of]
  · exact zeroFrom_wideOfV3 _

/-! ## The inverse undoes the product -/

/-- R131's entrywise identity is the identity over Z/256. -/
theorem modMatrix_mul_eq_one_iff (A B : M3) : modMatrix A * modMatrix B = 1 ↔
    ∀ i j : Fin 3, (∑ k : Fin 3, (A i k).toNat * (B k j).toNat) % 256 = if i = j then 1 else 0 := by
  rw [← Matrix.ext_iff]
  refine forall_congr' fun i => forall_congr' fun j => ?_
  have hentry : (modMatrix A * modMatrix B) i j = ((∑ k, (A i k).toNat * (B k j).toNat : ℕ) : ZMod 256) := by
    simp [Matrix.mul_apply, modMatrix]
  have hone : (1 : Matrix (Fin 3) (Fin 3) (ZMod 256)) i j = ((if i = j then 1 else 0 : ℕ) : ZMod 256) := by
    simp [Matrix.one_apply]
  rw [hentry, hone, ZMod.natCast_eq_natCast_iff']
  split <;> rfl

theorem matMulVecMod_of_mul_eq_one {K K' : M3} (h : modMatrix K' * modMatrix K = 1) (u : V3) :
    matMulVecMod K' (matMulVecMod K u) = u := by
  apply modVec_injective
  rw [modVec_matMulVecMod, modVec_matMulVecMod, Matrix.mulVec_mulVec, h, Matrix.one_mulVec]

/-- MVM3 with a key and then with its inverse returns the block, unless the first result overwrites the
second key. -/
theorem mvm3_mvm3_of_mul_eq_one {s : State} {d k k' : WReg} (e v : WReg) (hd : d ≠ k')
    (h : modMatrix (m3Of s.w[k']) * modMatrix (m3Of s.w[k]) = 1) :
    ∃ t u, exec (.mvm3 d k v) s = .next t ∧ exec (.mvm3 e k' d) t = .next u ∧ v3Of u.w[e] = v3Of s.w[v] := by
  refine ⟨_, _, exec_mvm3 d k v s, exec_mvm3 e k' d _, ?_⟩
  rw [complete_w, getElem_w_writeW_same, v3Of_wideOfV3, complete_w, getElem_w_writeW_same, v3Of_wideOfV3,
    sameWBut_writeW d _ s k' hd.symm, matMulVecMod_of_mul_eq_one h]

/-- Settles O34: over Z/256 a one-sided inverse of a square matrix is two-sided, and so the only one. -/
theorem matrixInverseRoundTrip : Obligations.MatrixInverseRoundTrip := by
  intro A B hB
  obtain ⟨-, hAB⟩ := det_mul_of_invertMod hB
  have hBA := mul_eq_one_comm.1 hAB
  refine ⟨(modMatrix_mul_eq_one_iff A B).1 hAB, (modMatrix_mul_eq_one_iff B A).1 hBA, fun C hC => ?_,
    fun C hC => ?_, fun s d e k k' v hd hkeys => mvm3_mvm3_of_mul_eq_one e v hd ?_⟩
  · exact modMatrix_injective (left_inv_eq_right_inv hBA ((modMatrix_mul_eq_one_iff A C).2 hC)).symm
  · exact modMatrix_injective (left_inv_eq_right_inv ((modMatrix_mul_eq_one_iff C A).2 hC) hAB)
  · obtain ⟨hk, hk'⟩ | ⟨hk, hk'⟩ := hkeys
    · rw [hk, hk', hAB]
    · rw [hk, hk', hBA]

end Sys2Proof.Machine

namespace Sys2Proof.Machine

/-! ## B8 and b8 as matrices and vectors over GF(2) -/

/-- A bit as an element of GF(2) (R150). -/
def gf2OfBool (b : Bool) : ZMod 2 := if b then 1 else 0

/-- A b8 as a vector over GF(2), most significant bit first (R150). -/
def bitVector (b : Byte) : Fin 8 → ZMod 2 := fun k => gf2OfBool (b.getLsbD (7 - k.val))

/-- A B8 as a matrix over GF(2), row `i` from byte `i` (R150). -/
def bitMatrix (A : B8) : Matrix (Fin 8) (Fin 8) (ZMod 2) := Matrix.of fun i => bitVector A[i]

theorem gf2OfBool_xor (a b : Bool) : gf2OfBool (a ^^ b) = gf2OfBool a + gf2OfBool b := by
  revert a b
  decide

theorem gf2OfBool_and (a b : Bool) : gf2OfBool (a && b) = gf2OfBool a * gf2OfBool b := by
  revert a b
  decide

theorem gf2OfBool_injective : Function.Injective gf2OfBool := by decide

theorem gf2OfBool_decide (p : Prop) [Decidable p] : gf2OfBool (decide p) = if p then 1 else 0 := by
  simp [gf2OfBool]

theorem bitVector_xor (a b : Byte) : bitVector (a ^^^ b) = bitVector a + bitVector b := by
  funext k
  simp [bitVector, gf2OfBool_xor]

theorem byte_eq_of_getLsbD_rev {a b : Byte} (h : ∀ k : Fin 8, a.getLsbD (7 - k.val) = b.getLsbD (7 - k.val)) :
    a = b := by
  apply BitVec.eq_of_getLsbD_eq
  intro i hi
  have hk := h ⟨7 - i, by omega⟩
  rwa [Nat.sub_sub_self (by omega)] at hk

theorem bitVector_injective : Function.Injective bitVector := fun _ _ h =>
  byte_eq_of_getLsbD_rev fun k => gf2OfBool_injective (congrFun h k)

theorem bitMatrix_injective : Function.Injective bitMatrix := fun _ _ h =>
  Vector.ext fun i hi => bitVector_injective (congrFun h ⟨i, hi⟩)

theorem bitMatrix_mulVec (A : B8) (x : Fin 8 → ZMod 2) (i : Fin 8) :
    (bitMatrix A).mulVec x i = bitVector A[i] ⬝ᵥ x := rfl

/-- A vector listed row by row gives its rows back. -/
theorem getElem_ofRows {α : Type} (row : Fin 8 → α) (i : Fin 8) :
    #v[row 0, row 1, row 2, row 3, row 4, row 5, row 6, row 7][i] = row i := by
  fin_cases i <;> rfl

theorem bitMatrix_b8Of (v : Wide) : bitMatrix (b8Of v) = gf2Matrix v := by
  ext i j
  have hrow : (b8Of v)[i] = byteOf v i.val := getElem_ofRows (fun i => byteOf v i.val) i
  rw [bitMatrix, Matrix.of_apply, hrow]
  rfl

theorem bitVector_vecByteOf (v : Wide) : bitVector (vecByteOf v) = gf2Vec v := rfl

/-! ## B8 and b8 values in a wide register -/

theorem b8Of_wideOfB8 (A : B8) : b8Of (wideOfB8 A) = A := by
  ext i hi : 1
  have hrow : (b8Of (wideOfB8 A))[i] = byteOf (wideOfB8 A) i :=
    getElem_ofRows (fun i => byteOf (wideOfB8 A) i.val) ⟨i, hi⟩
  rw [hrow, wideOfB8, byteOf_wideOfBytes _ _ (by omega)]
  interval_cases i <;> rfl

theorem vecByteOf_wideOfVecByte (b : Byte) : vecByteOf (wideOfVecByte b) = b :=
  byteOf_wideOfBytes [b] 0 (by norm_num)

theorem gf2Matrix_wideOfB8 (A : B8) : gf2Matrix (wideOfB8 A) = bitMatrix A := by
  rw [← bitMatrix_b8Of, b8Of_wideOfB8]

theorem gf2Vec_wideOfVecByte (b : Byte) : gf2Vec (wideOfVecByte b) = bitVector b := by
  rw [← bitVector_vecByteOf, vecByteOf_wideOfVecByte]

theorem zeroFrom_wideOfB8 (A : B8) : zeroFrom 8 (wideOfB8 A) := zeroFrom_wideOfBytes rfl

theorem zeroFrom_wideOfVecByte (b : Byte) : zeroFrom 1 (wideOfVecByte b) := zeroFrom_wideOfBytes rfl

/-! ## The products over GF(2) -/

theorem byteOfBits_getLsbD (f : Fin 8 → Bool) (k : Fin 8) : (byteOfBits f).getLsbD (7 - k.val) = f k := by
  simp only [byteOfBits, BitVec.getLsbD_append, BitVec.getLsbD_ofBool]
  fin_cases k <;> simp

theorem bitVector_byteOfBits (f : Fin 8 → Bool) (k : Fin 8) : bitVector (byteOfBits f) k = gf2OfBool (f k) := by
  rw [bitVector, byteOfBits_getLsbD]

/-- An XOR-reduction is a sum over GF(2). -/
theorem gf2OfBool_foldl_xor {α : Type} (g : α → Bool) (l : List α) (acc : Bool) :
    gf2OfBool (l.foldl (fun acc k => acc ^^ g k) acc)
      = gf2OfBool acc + (l.map fun k => gf2OfBool (g k)).sum := by
  induction l generalizing acc with
  | nil => simp
  | cons k l ih => rw [List.foldl_cons, ih, gf2OfBool_xor, List.map_cons, List.sum_cons, add_assoc]

theorem gf2OfBool_gf2ProductElem (A B : B8) (i j : Fin 8) :
    gf2OfBool (gf2ProductElem A B i j) = (bitMatrix A * bitMatrix B) i j := by
  rw [gf2ProductElem, gf2OfBool_foldl_xor, Matrix.mul_apply, Fin.sum_univ_def]
  simp only [gf2OfBool_and]
  exact zero_add _

/-- R151's parities of ANDs are the matrix product. -/
theorem bitMatrix_matMulGf2 (A B : B8) : bitMatrix (matMulGf2 A B) = bitMatrix A * bitMatrix B := by
  ext i j
  rw [bitMatrix, Matrix.of_apply, matMulGf2, getElem_ofRows (fun i => byteOfBits (gf2ProductElem A B i)),
    bitVector_byteOfBits, gf2OfBool_gf2ProductElem]

theorem gf2OfBool_parity_and (a b : Byte) : gf2OfBool (parity (a &&& b)) = bitVector a ⬝ᵥ bitVector b := by
  simp [parity, gf2OfBool_xor, gf2OfBool_and, dotProduct, Fin.sum_univ_eight, bitVector]
  ring

/-- R152's parities of row bytes are the matrix-vector product. -/
theorem bitVector_matVecMulGf2 (A : B8) (u : Byte) :
    bitVector (matVecMulGf2 A u) = (bitMatrix A).mulVec (bitVector u) := by
  funext i
  rw [matVecMulGf2, bitVector_byteOfBits, gf2OfBool_parity_and, bitMatrix_mulVec]

/-- R151: the outcome of GMM. -/
theorem exec_gmm (d a b : WReg) (s : State) : exec (.gmm d a b) s =
    .next (complete (writeW d (wideOfB8 (matMulGf2 (b8Of s.w[a]) (b8Of s.w[b]))) s)) := rfl

/-- Settles O37: the entries' parities are the product over GF(2). -/
theorem gmmWritesTheProduct : Obligations.GmmWritesTheProduct := by
  intro d a b s
  refine ⟨_, exec_gmm d a b s, ⟨rfl, rfl⟩, ?_, ?_, sameWBut_writeW d _ s, rfl, ⟨rfl, rfl⟩, rfl,
    exec_next_sameControl (exec_gmm d a b s)⟩ <;> rw [complete_w, getElem_w_writeW_same]
  · rw [gf2Matrix_wideOfB8, bitMatrix_matMulGf2, bitMatrix_b8Of, bitMatrix_b8Of]
  · exact zeroFrom_wideOfB8 _

/-- R153: the outcome of GMV. -/
theorem exec_gmv (d a v : WReg) (s : State) : exec (.gmv d a v) s =
    .next (complete (writeW d (wideOfVecByte (matVecMulGf2 (b8Of s.w[a]) (vecByteOf s.w[v]))) s)) := rfl

/-- Settles O38: the rows' parities are the product over GF(2). -/
theorem gmvWritesTheProduct : Obligations.GmvWritesTheProduct := by
  intro d a v s
  refine ⟨_, exec_gmv d a v s, ⟨rfl, rfl⟩, ?_, ?_, sameWBut_writeW d _ s, rfl, ⟨rfl, rfl⟩, rfl,
    exec_next_sameControl (exec_gmv d a v s)⟩ <;> rw [complete_w, getElem_w_writeW_same]
  · rw [gf2Vec_wideOfVecByte, bitVector_matVecMulGf2, bitMatrix_b8Of, bitVector_vecByteOf]
  · exact zeroFrom_wideOfVecByte _

/-! ## The augmented matrix as a system of equations -/

/-- The left half of an augmented row, the byte that starts as a row of `A` (R154). -/
def leftByte (row : BitVec 16) : Byte := row.extractLsb' 8 8

/-- The right half of an augmented row, the byte that ends as a row of the inverse (R154). -/
def rightByte (row : BitVec 16) : Byte := row.setWidth 8

/-- An augmented row read as the equation `left · x = right · y`. -/
def rowHolds (x y : Fin 8 → ZMod 2) (row : BitVec 16) : Prop :=
  bitVector (leftByte row) ⬝ᵥ x = bitVector (rightByte row) ⬝ᵥ y

/-- An augmented matrix read as its rows' equations. -/
def solves (x y : Fin 8 → ZMod 2) (T : Augmented) : Prop := ∀ i : Fin 8, rowHolds x y T[i]

/-- Columns `0 .. c-1` of the left half are those of the identity: what the passes before column `c`
have done. -/
def reducedBelow (c : Nat) (T : Augmented) : Prop :=
  ∀ i j : Fin 8, j.val < c → columnBit T[i] j = decide (i = j)

theorem leftByte_getLsbD (row : BitVec 16) (j : Fin 8) : (leftByte row).getLsbD (7 - j.val) = columnBit row j := by
  have hin : 7 - j.val < 8 := by omega
  have hpos : 8 + (7 - j.val) = 15 - j.val := by omega
  simp [leftByte, columnBit, hin, hpos]

theorem bitVector_leftByte (row : BitVec 16) (j : Fin 8) :
    bitVector (leftByte row) j = gf2OfBool (columnBit row j) := by
  rw [bitVector, leftByte_getLsbD]

theorem leftByte_append (a b : Byte) : leftByte (a ++ b) = a := BitVec.extractLsb'_append_eq_left

theorem rightByte_append (a b : Byte) : rightByte (a ++ b) = b := BitVec.setWidth_append_eq_right

theorem leftByte_xor (a b : BitVec 16) : leftByte (a ^^^ b) = leftByte a ^^^ leftByte b := BitVec.extractLsb'_xor

theorem rightByte_xor (a b : BitVec 16) : rightByte (a ^^^ b) = rightByte a ^^^ rightByte b := BitVec.setWidth_xor

theorem columnBit_xor (a b : BitVec 16) (c : Fin 8) : columnBit (a ^^^ b) c = (columnBit a c ^^ columnBit b c) :=
  BitVec.getLsbD_xor

/-- Adding an equation that holds changes nothing. -/
theorem rowHolds_xor_iff {x y : Fin 8 → ZMod 2} {a b : BitVec 16} (hb : rowHolds x y b) :
    rowHolds x y (a ^^^ b) ↔ rowHolds x y a := by
  rw [rowHolds] at hb
  rw [rowHolds, leftByte_xor, rightByte_xor, bitVector_xor, bitVector_xor, add_dotProduct, add_dotProduct, hb,
    add_left_inj, rowHolds]

/-! ## The start and the end of the elimination -/

theorem getElem_augment (A : B8) (i : Fin 8) : (augment A)[i] = A[i] ++ identityRow i :=
  getElem_ofRows (fun i : Fin 8 => A[i] ++ identityRow i) i

theorem bitVector_identityRow (i : Fin 8) : bitVector (identityRow i) = Pi.single i 1 := by
  revert i
  decide

/-- `[A | I]` is the system `A x = y`. -/
theorem solves_augment_iff (A : B8) (x y : Fin 8 → ZMod 2) :
    solves x y (augment A) ↔ (bitMatrix A).mulVec x = y := by
  rw [funext_iff]
  refine forall_congr' fun i => ?_
  rw [getElem_augment, rowHolds, leftByte_append, rightByte_append, bitVector_identityRow, single_one_dotProduct,
    bitMatrix_mulVec]

theorem bitVector_leftByte_of_reduced {T : Augmented} (hT : reducedBelow 8 T) (i : Fin 8) :
    bitVector (leftByte T[i]) = Pi.single i 1 := by
  funext j
  rw [bitVector_leftByte, hT i j j.isLt, gf2OfBool_decide, Pi.single_apply]
  simp only [eq_comm]

/-- `[I | B]` is the system `x = B y`. -/
theorem solves_reduced_iff {T : Augmented} (hT : reducedBelow 8 T) (x y : Fin 8 → ZMod 2) :
    solves x y T ↔ x = (bitMatrix (T.map fun row => row.setWidth 8)).mulVec y := by
  rw [funext_iff]
  refine forall_congr' fun i => ?_
  rw [rowHolds, bitVector_leftByte_of_reduced hT, single_one_dotProduct, bitMatrix_mulVec, Fin.getElem_fin,
    Fin.getElem_fin, Vector.getElem_map]
  rfl

/-! ## The row operations of a column pass -/

/-- The pivot search fails exactly where the column is 0 from row `c` on. -/
theorem pivotRow_cases (T : Augmented) (c : Fin 8) :
    (pivotRow T c = none ∧ ∀ r, c ≤ r → columnBit T[r] c = false) ∨
    (∃ p, pivotRow T c = some p ∧ c ≤ p ∧ columnBit T[p] c = true) := by
  cases hp : pivotRow T c with
  | none =>
    have hnone := List.find?_eq_none.1 hp
    exact .inl ⟨rfl, fun r hr => by simpa [hr] using hnone r (List.mem_finRange r)⟩
  | some p =>
    have hfound := List.find?_some hp
    rw [Bool.and_eq_true, decide_eq_true_eq] at hfound
    exact .inr ⟨p, rfl, hfound⟩

theorem getElem_swapRows (T : Augmented) (c p i : Fin 8) : (swapRows T c p)[i] = T[Equiv.swap c p i] := by
  obtain rfl | hp := eq_or_ne i p
  · simp [swapRows]
  · have hp' := Fin.val_ne_of_ne hp.symm
    obtain rfl | hc := eq_or_ne i c
    · simp [swapRows, hp']
    · simp [swapRows, hp', Fin.val_ne_of_ne hc.symm, Equiv.swap_apply_of_ne_of_ne hc hp]

theorem getElem_clearColumn (T : Augmented) (c r : Fin 8) : (clearColumn T c)[r] =
    if r ≠ c ∧ columnBit T[r] c = true then T[r] ^^^ T[c] else T[r] :=
  getElem_ofRows (fun r : Fin 8 => if r ≠ c ∧ columnBit T[r] c = true then T[r] ^^^ T[c] else T[r]) r

theorem solves_swapRows_iff (x y : Fin 8 → ZMod 2) (T : Augmented) (c p : Fin 8) :
    solves x y (swapRows T c p) ↔ solves x y T := by
  simp only [solves, getElem_swapRows]
  exact (Equiv.swap c p).forall_congr_right (q := fun i => rowHolds x y T[i])

theorem solves_clearColumn_iff (x y : Fin 8 → ZMod 2) (T : Augmented) (c : Fin 8) :
    solves x y (clearColumn T c) ↔ solves x y T := by
  have hpivot : (clearColumn T c)[c] = T[c] :=
    (getElem_clearColumn T c c).trans (if_neg fun ⟨hne, _⟩ => hne rfl)
  have hrow (hc : rowHolds x y T[c]) (r : Fin 8) : rowHolds x y (clearColumn T c)[r] ↔ rowHolds x y T[r] := by
    rw [getElem_clearColumn]
    split
    · exact rowHolds_xor_iff hc
    · rfl
  constructor
  · intro h r
    have hc : rowHolds x y T[c] := hpivot ▸ h c
    exact (hrow hc r).1 (h r)
  · exact fun h r => (hrow (h c) r).2 (h r)

theorem reducedBelow_swapRows {T : Augmented} {c p : Fin 8} (hT : reducedBelow c T) (hp : c ≤ p) :
    reducedBelow c (swapRows T c p) := by
  intro i j hj
  have hswap : Equiv.swap c p j = j := Equiv.swap_apply_of_ne_of_ne (by omega) (by omega)
  rw [getElem_swapRows, hT _ j hj, decide_eq_decide, Equiv.swap_apply_eq_iff, hswap]

/-- Clearing column `c` with a pivot in row `c` makes it a column of the identity and leaves the columns
before it. -/
theorem reducedBelow_clearColumn {T : Augmented} {c : Fin 8} (hT : reducedBelow c T)
    (hc : columnBit T[c] c = true) : reducedBelow (c + 1) (clearColumn T c) := by
  intro i j hj
  rw [getElem_clearColumn]
  obtain hlt | rfl : j < c ∨ j = c := by omega
  · have hzero : columnBit T[c] j = false := by rw [hT c j hlt, decide_eq_false_iff_not]; omega
    split
    · rw [columnBit_xor, hzero, Bool.xor_false, hT i j hlt]
    · exact hT i j hlt
  · by_cases hij : i = j
    · simp [-Fin.getElem_fin, hij, hc]
    · cases hbit : columnBit T[i] j <;> simp [-Fin.getElem_fin, hij, hbit, hc, columnBit_xor]

/-- The non-zero solution of a system whose column `c` has no pivot: unknown `c` is 1, and the reduced
columns before it make up for that column. -/
def kernelVector (T : Augmented) (c : Fin 8) : Fin 8 → ZMod 2 :=
  Pi.single c 1 + fun j => if j < c then gf2OfBool (columnBit T[j] c) else 0

theorem kernelVector_ne_zero (T : Augmented) (c : Fin 8) : kernelVector T c ≠ 0 := fun h =>
  one_ne_zero (α := ZMod 2) (by simpa [kernelVector] using congrFun h c)

theorem dotProduct_kernelVector {T : Augmented} {c : Fin 8} (hT : reducedBelow c T) (r : Fin 8) :
    bitVector (leftByte T[r]) ⬝ᵥ kernelVector T c =
      gf2OfBool (columnBit T[r] c) + if r < c then gf2OfBool (columnBit T[r] c) else 0 := by
  have hterm (j : Fin 8) :
      bitVector (leftByte T[r]) j * (if j < c then gf2OfBool (columnBit T[j] c) else 0) =
        if j = r then (if r < c then gf2OfBool (columnBit T[r] c) else 0) else 0 := by
    by_cases hlt : j < c
    · rw [bitVector_leftByte, hT r j hlt, gf2OfBool_decide]
      obtain rfl | hne := eq_or_ne j r
      · simp
      · simp [hne, hne.symm]
    · rw [if_neg hlt, mul_zero]
      obtain rfl | hne := eq_or_ne j r
      · simp [hlt]
      · simp [hne]
  rw [kernelVector, dotProduct_add, dotProduct_single_one, bitVector_leftByte, dotProduct,
    Finset.sum_congr rfl fun j _ => hterm j, Finset.sum_ite_eq', if_pos (Finset.mem_univ _)]

theorem solves_kernelVector {T : Augmented} {c : Fin 8} (hT : reducedBelow c T)
    (hnone : ∀ r, c ≤ r → columnBit T[r] c = false) : solves (kernelVector T c) 0 T := by
  intro r
  rw [rowHolds, dotProduct_zero, dotProduct_kernelVector hT]
  by_cases hr : r < c
  · rw [if_pos hr, CharTwo.add_self_eq_zero]
  · rw [if_neg hr, hnone r (not_lt.1 hr)]
    rfl

/-! ## The elimination -/

/-- Elimination of `T` in `result` either fails on a system with a non-zero solution for `y = 0`, or
gives an equivalent system with the columns before `c` reduced. -/
def eliminates (c : Nat) (T : Augmented) (result : Option Augmented) : Prop :=
  (result = none ∧ ∃ x ≠ 0, solves x 0 T) ∨
  (∃ U, result = some U ∧ reducedBelow c U ∧ ∀ x y, solves x y U ↔ solves x y T)

theorem columnPass_eliminates {T : Augmented} {c : Fin 8} (hT : reducedBelow c T) :
    eliminates (c + 1) T (columnPass T c) := by
  obtain ⟨hp, hnone⟩ | ⟨p, hp, hcp, hbit⟩ := pivotRow_cases T c
  · exact .inl ⟨by rw [columnPass, hp], kernelVector T c, kernelVector_ne_zero T c, solves_kernelVector hT hnone⟩
  · have hpivot : columnBit (swapRows T c p)[c] c = true := by
      simp only [getElem_swapRows, Equiv.swap_apply_left, hbit]
    refine .inr ⟨clearColumn (swapRows T c p) c, by rw [columnPass, hp], ?_, fun x y => ?_⟩
    · exact reducedBelow_clearColumn (reducedBelow_swapRows hT hcp) hpivot
    · rw [solves_clearColumn_iff, solves_swapRows_iff]

/-- Passes over consecutive columns, from any column on. -/
theorem foldlM_columnPass_eliminates {l : List (Fin 8)} {c : Nat} {T : Augmented}
    (hl : l.map Fin.val = List.range' c l.length) (hT : reducedBelow c T) :
    eliminates (c + l.length) T (l.foldlM columnPass T) := by
  induction l generalizing c T with
  | nil => exact .inr ⟨T, rfl, hT, fun _ _ => Iff.rfl⟩
  | cons k l ih =>
    obtain ⟨rfl, hl⟩ : k.val = c ∧ l.map Fin.val = List.range' (c + 1) l.length := by
      simpa [List.range'_succ] using hl
    obtain ⟨hnone, hker⟩ | ⟨U, hU, hred, hiff⟩ := columnPass_eliminates hT
    · exact .inl ⟨by rw [List.foldlM_cons, hnone]; rfl, hker⟩
    · rw [List.foldlM_cons, hU, List.length_cons, Nat.add_comm l.length, ← Nat.add_assoc]
      obtain ⟨hnone, x, hx, hsol⟩ | ⟨V, hV, hredV, hiffV⟩ := ih hl hred
      · exact .inl ⟨hnone, x, hx, (hiff x 0).1 hsol⟩
      · exact .inr ⟨V, hV, hredV, fun x y => (hiffV x y).trans (hiff x y)⟩

theorem mul_eq_one_of_solution_iff {A B : Matrix (Fin 8) (Fin 8) (ZMod 2)}
    (h : ∀ x y, x = B.mulVec y ↔ A.mulVec x = y) : A * B = 1 :=
  Matrix.mulVec_injective <| funext fun y => by
    rw [← Matrix.mulVec_mulVec, (h _ y).1 rfl, Matrix.one_mulVec]

/-- R155: elimination fails on a singular matrix only, and otherwise gives an inverse. -/
theorem invertGf2_cases (A : B8) :
    (invertGf2 A = none ∧ ∃ x ≠ 0, (bitMatrix A).mulVec x = 0) ∨
    (∃ B, invertGf2 A = some B ∧ bitMatrix A * bitMatrix B = 1) := by
  have hpasses : eliminates 8 (augment A) ((List.finRange 8).foldlM columnPass (augment A)) :=
    foldlM_columnPass_eliminates (c := 0) (by decide) fun _ j hj => absurd hj (Nat.not_lt_zero j)
  obtain ⟨hnone, x, hx, hsol⟩ | ⟨U, hU, hred, hiff⟩ := hpasses
  · exact .inl ⟨by rw [invertGf2, hnone], x, hx, (solves_augment_iff A x 0).1 hsol⟩
  · refine .inr ⟨_, by rw [invertGf2, hU], mul_eq_one_of_solution_iff fun x y => ?_⟩
    rw [← solves_reduced_iff hred, hiff, solves_augment_iff]

theorem not_singular_of_mul_eq_one {A B : Matrix (Fin 8) (Fin 8) (ZMod 2)} (h : A * B = 1) :
    ¬ ∃ x ≠ 0, A.mulVec x = 0 := by
  rintro ⟨x, hx, hAx⟩
  apply hx
  rw [← Matrix.one_mulVec x, ← mul_eq_one_comm.1 h, ← Matrix.mulVec_mulVec, hAx, Matrix.mulVec_zero]

/-- R155: the inverse is the only one, so the elimination gives it whatever its pivots. -/
theorem invertGf2_eq_some_iff {A B : B8} : invertGf2 A = some B ↔ bitMatrix A * bitMatrix B = 1 := by
  obtain ⟨hnone, hsing⟩ | ⟨C, hC, hAC⟩ := invertGf2_cases A
  · rw [hnone]
    exact ⟨nofun, fun h => absurd hsing (not_singular_of_mul_eq_one h)⟩
  · rw [hC, Option.some_inj]
    refine ⟨fun h => h ▸ hAC, fun hAB => bitMatrix_injective ?_⟩
    exact left_inv_eq_right_inv (mul_eq_one_comm.1 hAC) hAB

theorem invertGf2_eq_none_iff {A : B8} : invertGf2 A = none ↔ ¬ ∃ B, bitMatrix A * B = 1 := by
  obtain ⟨hnone, hsing⟩ | ⟨C, hC, hAC⟩ := invertGf2_cases A
  · exact iff_of_true hnone fun ⟨B, hB⟩ => not_singular_of_mul_eq_one hB hsing
  · exact iff_of_false (by simp [hC]) (not_not_intro ⟨_, hAC⟩)

theorem invertGf2_isSome_iff {A : B8} : (invertGf2 A).isSome = true ↔ ∃ B, bitMatrix A * B = 1 := by
  rw [Option.isSome_iff_ne_none, ne_eq, invertGf2_eq_none_iff, not_not]

/-- Full rank is surjectivity, and so a right inverse. -/
theorem rank_eq_eight_iff (A : Matrix (Fin 8) (Fin 8) (ZMod 2)) : A.rank = 8 ↔ ∃ B, A * B = 1 := by
  constructor
  · intro hrank
    have htop : LinearMap.range A.mulVecLin = ⊤ :=
      Submodule.eq_top_of_finrank_eq (hrank.trans (Module.finrank_fin_fun (ZMod 2)).symm)
    exact Matrix.mulVec_surjective_iff_exists_right_inverse.1 (LinearMap.range_eq_top.1 htop)
  · rintro ⟨B, hB⟩
    exact Matrix.rank_of_isUnit A (IsUnit.of_mul_eq_one B hB)

/-- Settles O41: an inverse over a field is two-sided and unique, and its own inverse is the matrix. -/
theorem gaussJordanInvertsExactlyFullRank : Obligations.GaussJordanInvertsExactlyFullRank := by
  intro v
  rw [← bitMatrix_b8Of]
  refine ⟨invertGf2_isSome_iff.trans (rank_eq_eight_iff _).symm, fun B hB => ?_⟩
  have hAB := invertGf2_eq_some_iff.1 hB
  have hBA := mul_eq_one_comm.1 hAB
  rw [gf2Matrix_wideOfB8]
  exact ⟨hAB, hBA, fun C hC => (left_inv_eq_right_inv hBA hC).symm, invertGf2_eq_some_iff.2 hBA⟩

/-! ## The inverse and the test of invertibility as commands -/

/-- R156: the outcome of GINV, by the invertibility of its source. -/
theorem exec_ginv_cases (d src : WReg) (s : State) :
    ((¬ ∃ B, gf2Matrix s.w[src] * B = 1) ∧ exec (.ginv d src) s = .next (complete (setNi true s))) ∨
    (∃ R, gf2Matrix s.w[src] * bitMatrix R = 1 ∧
      exec (.ginv d src) s = .next (complete (setNi false (writeW d (wideOfB8 R) s)))) := by
  rw [← bitMatrix_b8Of]
  obtain ⟨hnone, hexec⟩ | ⟨R, hR, hexec⟩ := execGinv_cases d src s
  · exact .inl ⟨invertGf2_eq_none_iff.1 hnone, hexec⟩
  · exact .inr ⟨R, invertGf2_eq_some_iff.1 hR, hexec⟩

/-- Settles O39: by the invertibility of the source; a one-sided inverse of a square matrix is two-sided. -/
theorem ginvWritesTheInverseOrSetsNi : Obligations.GinvWritesTheInverseOrSetsNi := by
  intro d src s
  obtain ⟨hsing, hexec⟩ | ⟨R, hmul, hexec⟩ := exec_ginv_cases d src s
  · exact ⟨_, hexec, ⟨rfl, rfl⟩, fun hinv => absurd hinv hsing, fun _ => ⟨rfl, rfl⟩, fun _ _ => rfl, rfl,
      ⟨rfl, rfl⟩, exec_next_sameControl hexec⟩
  · refine ⟨_, hexec, ⟨rfl, rfl⟩, fun _ => ⟨rfl, ?_⟩, fun hsing => absurd ⟨_, hmul⟩ hsing, sameWBut_writeW d _ s,
      rfl, ⟨rfl, rfl⟩, exec_next_sameControl hexec⟩
    rw [complete_w, setNi_w, getElem_w_writeW_same, gf2Matrix_wideOfB8]
    exact ⟨hmul, mul_eq_one_comm.1 hmul, zeroFrom_wideOfB8 R⟩

/-- R158: the outcome of GISINV, by the invertibility of its source. -/
theorem exec_gisinv_cases (d : XReg) (src : WReg) (s : State) :
    ((¬ ∃ B, gf2Matrix s.w[src] * B = 1) ∧
      exec (.gisinv d src) s = .next (complete (setNi true (writeX d 0#32 s)))) ∨
    ((∃ B, gf2Matrix s.w[src] * B = 1) ∧
      exec (.gisinv d src) s = .next (complete (setNi false (writeX d 1#32 s)))) := by
  have hexec : exec (.gisinv d src) s = .next (complete (setNi (!isInvertibleGf2 (b8Of s.w[src]))
      (writeX d (if isInvertibleGf2 (b8Of s.w[src]) then 1#32 else 0#32) s))) := rfl
  rw [← bitMatrix_b8Of, ← invertGf2_isSome_iff, hexec, isInvertibleGf2]
  cases (invertGf2 (b8Of s.w[src])).isSome
  · exact .inl ⟨Bool.false_ne_true, rfl⟩
  · exact .inr ⟨rfl, rfl⟩

/-- Settles O40: by the invertibility of the source. -/
theorem gisinvTestsInvertibility : Obligations.GisinvTestsInvertibility := by
  intro d src s
  obtain ⟨hsing, hexec⟩ | ⟨hinv, hexec⟩ := exec_gisinv_cases d src s
  · exact ⟨_, hexec, ⟨rfl, rfl⟩, fun hinv => absurd hinv hsing, fun _ => ⟨getElem_x_writeX_same d _ s, rfl⟩,
      sameXBut_writeX d _ s, rfl, ⟨rfl, rfl⟩, exec_next_sameControl hexec⟩
  · exact ⟨_, hexec, ⟨rfl, rfl⟩, fun _ => ⟨getElem_x_writeX_same d _ s, rfl⟩, fun hsing => absurd hinv hsing,
      sameXBut_writeX d _ s, rfl, ⟨rfl, rfl⟩, exec_next_sameControl hexec⟩

end Sys2Proof.Machine

namespace Sys2Proof.Machine

/-! ## The shift step, bit by bit -/

theorem bitAt_getLsbD (b : Bool) (k j : Nat) : (bitAt b k).getLsbD j = (decide (j < 128 ∧ j = k) && b) := by
  simp only [bitAt, BitVec.getLsbD_shiftLeft, BitVec.getLsbD_setWidth, BitVec.getLsbD_ofBool]
  by_cases h : j = k
  · subst h; by_cases hj : j < 128 <;> simp [hj]
  · by_cases hlt : j < k
    · simp [h, hlt]
    · have : j - k ≠ 0 := by omega
      simp [h, this]

/-- The mask that clears bit 7 of each byte. -/
theorem lowSevenMask_getLsbD : ∀ k : Fin 128,
    (0x7F7F7F7F7F7F7F7F7F7F7F7F7F7F7F7F#128).getLsbD k.val = decide (k.val % 8 ≠ 7) := by decide

/-- The mask that keeps bit 0 of each byte. -/
theorem lowBitMask_getLsbD : ∀ k : Fin 128,
    (0x01010101010101010101010101010101#128).getLsbD k.val = decide (k.val % 8 = 0) := by decide

theorem shiftStep_backToFront_getLsbD (v : Wide) {k : Nat} (hk : k < 128) :
    (shiftStep .backToFront v).getLsbD k = if k = 127 then newbit v else v.getLsbD (k + 1) := by
  rw [shiftStep, BitVec.getLsbD_or, bitAt_getLsbD, BitVec.getLsbD_ushiftRight, Nat.add_comm 1 k]
  by_cases h : k = 127
  · subst h; simp
  · simp [h]

theorem shiftStep_frontToBack_getLsbD (v : Wide) {k : Nat} (hk : k < 128) :
    (shiftStep .frontToBack v).getLsbD k =
      if k = 7 then newbit v else if k % 8 = 7 then v.getLsbD (k - 15) else v.getLsbD (k + 1) := by
  have hcarry : ((v &&& 0x01010101010101010101010101010101#128) <<< 15).getLsbD k =
      (decide (15 ≤ k ∧ k % 8 = 7) && v.getLsbD (k - 15)) := by
    rw [BitVec.getLsbD_shiftLeft, BitVec.getLsbD_and, lowBitMask_getLsbD ⟨k - 15, by omega⟩]
    by_cases h : 15 ≤ k
    · have hmod : (k - 15) % 8 = 0 ↔ k % 8 = 7 := by omega
      simp [hk, h, hmod, Bool.and_comm]
    · simp [h]
  rw [shiftStep, BitVec.getLsbD_or, BitVec.getLsbD_or, BitVec.getLsbD_and, BitVec.getLsbD_ushiftRight,
    lowSevenMask_getLsbD ⟨k, hk⟩, bitAt_getLsbD, hcarry, Nat.add_comm 1 k]
  by_cases h7 : k = 7
  · subst h7; simp
  · by_cases hlast : k % 8 = 7
    · have : 15 ≤ k := by omega
      simp [h7, hlast, this]
    · simp [h7, hlast]

/-! ## The shift step, byte by byte -/

/-- A byte shifted right by one, with a carry into bit 7 (the loop body of R182). -/
def shiftIn (carry : Bool) (b : Byte) : Byte := (b >>> 1) ||| ((BitVec.ofBool carry).setWidth 8 <<< 7)

/-- A byte is known to be a shifted one by its bit 7 and the seven bits below. -/
theorem eq_shiftIn {c b : Byte} {carry : Bool} (htop : c.getLsbD 7 = carry)
    (hlow : ∀ k < 7, c.getLsbD k = b.getLsbD (k + 1)) : c = shiftIn carry b := by
  apply BitVec.eq_of_getLsbD_eq
  intro k hk
  rw [shiftIn, BitVec.getLsbD_or, BitVec.getLsbD_ushiftRight, BitVec.getLsbD_shiftLeft,
    BitVec.getLsbD_setWidth, BitVec.getLsbD_ofBool, Nat.add_comm 1 k]
  by_cases h : k = 7
  · subst h; simpa using htop
  · have hlt : k < 7 := by omega
    simpa [h, hlt] using hlow k hlt

theorem shiftIn_toNat (carry : Bool) (b : Byte) :
    (shiftIn carry b).toNat = b.toNat / 2 + 128 * carry.toNat := by
  revert carry b; decide

theorem byteOf_getLsbD_of_lt (v : Wide) (i : Nat) {k : Nat} (hk : k < 8) :
    (byteOf v i).getLsbD k = v.getLsbD (8 * i + k) := by
  rw [byteOf_getLsbD, decide_eq_true hk, Bool.true_and]

/-- R182, FRONT_TO_BACK: each byte takes its carry from the byte before it. -/
theorem byteOf_shiftStep_frontToBack (v : Wide) {i : Nat} (hlo : 1 ≤ i) (hhi : i ≤ 15) :
    byteOf (shiftStep .frontToBack v) i = shiftIn ((byteOf v (i - 1)).getLsbD 0) (byteOf v i) := by
  refine eq_shiftIn ?_ fun k hk => ?_
  · rw [byteOf_getLsbD_of_lt _ _ (by omega), byteOf_getLsbD_of_lt _ _ (by omega),
      shiftStep_frontToBack_getLsbD v (by omega), if_neg (by omega), if_pos (by omega)]
    congr 1; omega
  · rw [byteOf_getLsbD_of_lt _ _ (by omega), byteOf_getLsbD_of_lt _ _ (by omega),
      shiftStep_frontToBack_getLsbD v (by omega), if_neg (by omega), if_neg (by omega), Nat.add_assoc]

/-- R182, FRONT_TO_BACK: the feedback bit enters byte 0. -/
theorem byteOf_shiftStep_frontToBack_zero (v : Wide) :
    byteOf (shiftStep .frontToBack v) 0 = shiftIn (newbit v) (byteOf v 0) := by
  refine eq_shiftIn ?_ fun k hk => ?_
  · rw [byteOf_getLsbD_of_lt _ _ (by omega), shiftStep_frontToBack_getLsbD v (by omega), if_pos rfl]
  · rw [byteOf_getLsbD_of_lt _ _ (by omega), byteOf_getLsbD_of_lt _ _ (by omega),
      shiftStep_frontToBack_getLsbD v (by omega), if_neg (by omega), if_neg (by omega), Nat.add_assoc]

/-- R182, BACK_TO_FRONT: each byte takes its carry from the byte after it. -/
theorem byteOf_shiftStep_backToFront (v : Wide) {i : Nat} (hi : i ≤ 14) :
    byteOf (shiftStep .backToFront v) i = shiftIn ((byteOf v (i + 1)).getLsbD 0) (byteOf v i) := by
  refine eq_shiftIn ?_ fun k hk => ?_
  · rw [byteOf_getLsbD_of_lt _ _ (by omega), byteOf_getLsbD_of_lt _ _ (by omega),
      shiftStep_backToFront_getLsbD v (by omega), if_neg (by omega)]
    congr 1
  · rw [byteOf_getLsbD_of_lt _ _ (by omega), byteOf_getLsbD_of_lt _ _ (by omega),
      shiftStep_backToFront_getLsbD v (by omega), if_neg (by omega), Nat.add_assoc]

/-- R182, BACK_TO_FRONT: the feedback bit enters byte 15. -/
theorem byteOf_shiftStep_backToFront_last (v : Wide) :
    byteOf (shiftStep .backToFront v) 15 = shiftIn (newbit v) (byteOf v 15) := by
  refine eq_shiftIn ?_ fun k hk => ?_
  · rw [byteOf_getLsbD_of_lt _ _ (by omega), shiftStep_backToFront_getLsbD v (by omega), if_pos rfl]
  · rw [byteOf_getLsbD_of_lt _ _ (by omega), byteOf_getLsbD_of_lt _ _ (by omega),
      shiftStep_backToFront_getLsbD v (by omega), if_neg (by omega), Nat.add_assoc]

/-- The feedback bit is a function of byte 0 (R181). -/
def frontNewbit (b : Byte) : Bool := b.getLsbD 0 ^^ b.getLsbD 1 ^^ b.getLsbD 2 ^^ b.getLsbD 7

theorem newbit_eq_frontNewbit (v : Wide) : newbit v = frontNewbit (byteOf v 0) := by
  simp only [newbit, frontNewbit, byteOf_getLsbD]
  rfl

/-! ## The shift step as a number -/

/-- Bytes listed from the least significant one, each shifted right with the carry of the next one, are
half of their number, with the last carry above them. -/
theorem two_mul_sum_shifted (f g : ℕ → ℕ) (n : ℕ) (h : ∀ i < n, g i = f i / 2 + 128 * (f (i + 1) % 2)) :
    2 * (∑ i ∈ Finset.range n, g i * 2 ^ (8 * i)) + f 0 % 2 =
      (∑ i ∈ Finset.range n, f i * 2 ^ (8 * i)) + f n % 2 * 2 ^ (8 * n) := by
  induction n with
  | zero => simp
  | succ n ih =>
    have hn := h n (by omega)
    have hsplit : 2 * (g n * 2 ^ (8 * n)) + f n % 2 * 2 ^ (8 * n) =
        f n * 2 ^ (8 * n) + f (n + 1) % 2 * 2 ^ (8 * (n + 1)) := by
      have hdiv : 2 * g n + f n % 2 = f n + 256 * (f (n + 1) % 2) := by omega
      calc 2 * (g n * 2 ^ (8 * n)) + f n % 2 * 2 ^ (8 * n) = (2 * g n + f n % 2) * 2 ^ (8 * n) := by ring
        _ = f n * 2 ^ (8 * n) + f (n + 1) % 2 * 2 ^ (8 * (n + 1)) := by rw [hdiv]; ring
    rw [Finset.sum_range_succ, Finset.sum_range_succ]
    have := ih fun i hi => h i (by omega)
    linarith

/-- The register as a number, its bytes in chain order: byte 15 is the least significant one with
FRONT_TO_BACK, byte 0 with BACK_TO_FRONT (R182). -/
theorem sum_reversed_bytes (v : Wide) :
    ∑ i ∈ Finset.range 16, (byteOf v i).toNat * 2 ^ (8 * (15 - i)) =
      ∑ i ∈ Finset.range 16, (byteOf v (15 - i)).toNat * 2 ^ (8 * i) := by
  rw [← Finset.sum_range_reflect]
  refine Finset.sum_congr rfl fun i hi => ?_
  have : i < 16 := Finset.mem_range.1 hi
  congr 3; omega

theorem toNat_mod_two (b : Byte) : b.toNat % 2 = (b.getLsbD 0).toNat := by
  revert b; decide

/-- Sixteen bytes, the least significant first, followed by the bit that is shifted in above them. -/
def chainDigits (bytes : ℕ → Byte) (top : Bool) (i : ℕ) : ℕ := if i < 16 then (bytes i).toNat else top.toNat

/-- Shifting sixteen bytes right by one with a new top bit `nb` is `(nb << 127) | (V >> 1)` on their number. -/
theorem sum_shiftIn (bytes shifted : ℕ → Byte) (top : Bool)
    (hstep : ∀ i < 15, shifted i = shiftIn ((bytes (i + 1)).getLsbD 0) (bytes i))
    (hlast : shifted 15 = shiftIn top (bytes 15)) :
    ∑ i ∈ Finset.range 16, (shifted i).toNat * 2 ^ (8 * i) =
      top.toNat * 2 ^ 127 + (∑ i ∈ Finset.range 16, (bytes i).toNat * 2 ^ (8 * i)) / 2 := by
  have htop : top.toNat % 2 = top.toNat := Nat.mod_eq_of_lt top.toNat_lt
  have hdigits : ∀ i < 16, (shifted i).toNat =
      chainDigits bytes top i / 2 + 128 * (chainDigits bytes top (i + 1) % 2) := by
    intro i hi
    obtain h | rfl : i < 15 ∨ i = 15 := by omega
    · rw [hstep i h, shiftIn_toNat, chainDigits, chainDigits, if_pos hi, if_pos (by omega), toNat_mod_two]
    · rw [hlast, shiftIn_toNat, chainDigits, chainDigits, if_pos hi, if_neg (by omega), htop]
  have hsum : ∑ i ∈ Finset.range 16, chainDigits bytes top i * 2 ^ (8 * i) =
      ∑ i ∈ Finset.range 16, (bytes i).toNat * 2 ^ (8 * i) :=
    Finset.sum_congr rfl fun i hi => by rw [chainDigits, if_pos (Finset.mem_range.1 hi)]
  have htwo := two_mul_sum_shifted _ _ 16 hdigits
  have hlsb := Nat.mod_lt (chainDigits bytes top 0) two_pos
  rw [hsum, show chainDigits bytes top 16 = top.toNat from rfl, htop] at htwo
  omega

/-- Settles O42, by the bits of the shift step; the number follows from the bytes. -/
theorem shiftStepByBytesAndAsANumber : Obligations.ShiftStepByBytesAndAsANumber := by
  intro v
  refine ⟨newbit_eq_frontNewbit v, fun i hlo hhi => byteOf_shiftStep_frontToBack v hlo hhi,
    byteOf_shiftStep_frontToBack_zero v, fun i hi => byteOf_shiftStep_backToFront v hi,
    byteOf_shiftStep_backToFront_last v, ?_, ?_, by decide, by decide⟩
  · rw [sum_reversed_bytes, sum_reversed_bytes]
    refine sum_shiftIn (fun i => byteOf v (15 - i)) _ _ (fun i hi => ?_) (byteOf_shiftStep_frontToBack_zero v)
    rw [byteOf_shiftStep_frontToBack v (by omega) (by omega), Nat.sub_sub]
  · exact sum_shiftIn (byteOf v) _ _ (fun i hi => byteOf_shiftStep_backToFront v (by omega))
      (byteOf_shiftStep_backToFront_last v)

end Sys2Proof.Machine

namespace Sys2Proof.Machine

/-! ## Generator calls as iterated shift steps -/

theorem shiftSteps_eq_iterate (chain : LfsrChain) (n : ℕ) : shiftSteps chain n = (shiftStep chain)^[n] := by
  induction n with
  | zero => rfl
  | succ n ih => funext v; rw [shiftSteps, ih, Function.iterate_succ_apply]

theorem callL_eq_iterate (chain : LfsrChain) : callL chain = (shiftStep chain)^[32] :=
  shiftSteps_eq_iterate chain 32

theorem callsL_eq_iterate_callL (chain : LfsrChain) (n : ℕ) : callsL chain n = (callL chain)^[n] := by
  induction n with
  | zero => rfl
  | succ n ih => funext v; rw [callsL, ih, Function.iterate_succ_apply]

theorem callsL_eq_iterate_shiftStep (chain : LfsrChain) (n : ℕ) : callsL chain n = (shiftStep chain)^[32 * n] := by
  rw [callsL_eq_iterate_callL, callL_eq_iterate, Function.iterate_mul]

/-! ## A generator call is linear over GF(2) -/

theorem newbit_xor (v u : Wide) : newbit (v ^^^ u) = (newbit v ^^ newbit u) := by
  simp only [newbit, BitVec.getLsbD_xor]
  cases v.getLsbD 0 <;> cases v.getLsbD 1 <;> cases v.getLsbD 2 <;> cases v.getLsbD 7 <;> simp

theorem shiftStep_xor (chain : LfsrChain) (v u : Wide) :
    shiftStep chain (v ^^^ u) = shiftStep chain v ^^^ shiftStep chain u := by
  apply BitVec.eq_of_getLsbD_eq
  intro k hk
  rw [BitVec.getLsbD_xor]
  cases chain with
  | frontToBack =>
    simp only [shiftStep_frontToBack_getLsbD _ hk, newbit_xor, BitVec.getLsbD_xor]
    split_ifs <;> rfl
  | backToFront =>
    simp only [shiftStep_backToFront_getLsbD _ hk, newbit_xor, BitVec.getLsbD_xor]
    split_ifs <;> rfl

theorem callL_xor (chain : LfsrChain) (v u : Wide) :
    callL chain (v ^^^ u) = callL chain v ^^^ callL chain u := by
  rw [callL_eq_iterate]
  exact Function.Semiconj₂.iterate (shiftStep_xor chain) 32 v u

/-! ## Maps that respect XOR are linear over GF(2) -/

/-- A register of any width as its bits over GF(2). -/
def bitsOf {w : ℕ} (v : BitVec w) : Fin w → ZMod 2 := fun k => gf2OfBool (v.getLsbD k.val)

/-- The register with the given bits. -/
def ofBits {w : ℕ} (x : Fin w → ZMod 2) : BitVec w := BitVec.ofFnLE fun k => decide (x k = 1)

section
variable {w : ℕ}

theorem ofBits_bitsOf (v : BitVec w) : ofBits (bitsOf v) = v := by
  have hbit : ∀ b : Bool, decide (gf2OfBool b = 1) = b := by decide
  apply BitVec.eq_of_getLsbD_eq
  intro k hk
  simp [ofBits, bitsOf, hbit, hk]

theorem bitsOf_ofBits (x : Fin w → ZMod 2) : bitsOf (ofBits x) = x := by
  have hbit : ∀ a : ZMod 2, gf2OfBool (decide (a = 1)) = a := by decide
  funext k
  simp [ofBits, bitsOf, hbit]

theorem bitsOf_xor (v u : BitVec w) : bitsOf (v ^^^ u) = bitsOf v + bitsOf u := by
  funext k
  rw [bitsOf, BitVec.getLsbD_xor, gf2OfBool_xor]
  rfl

theorem ofBits_add (x y : Fin w → ZMod 2) : ofBits (x + y) = ofBits x ^^^ ofBits y := by
  rw [← ofBits_bitsOf (ofBits x ^^^ ofBits y), bitsOf_xor, bitsOf_ofBits, bitsOf_ofBits]

theorem bitsOf_eq_zero_iff (v : BitVec w) (k : Fin w) : bitsOf v k = 0 ↔ v.getLsbD k.val = false := by
  have hbit : ∀ b : Bool, gf2OfBool b = 0 ↔ b = false := by decide
  exact hbit _

/-- A map that respects XOR, on the bits over GF(2). -/
def xorMap (f : BitVec w → BitVec w) (hf : ∀ v u, f (v ^^^ u) = f v ^^^ f u) :
    Module.End (ZMod 2) (Fin w → ZMod 2) :=
  (AddMonoidHom.mk' (fun x => bitsOf (f (ofBits x)))
    fun x y => by rw [ofBits_add, hf, bitsOf_xor]).toZModLinearMap 2

variable {f g : BitVec w → BitVec w} (hf : ∀ v u, f (v ^^^ u) = f v ^^^ f u)
  (hg : ∀ v u, g (v ^^^ u) = g v ^^^ g u)

theorem xorMap_bitsOf (v : BitVec w) : xorMap f hf (bitsOf v) = bitsOf (f v) :=
  congrArg (fun u => bitsOf (f u)) (ofBits_bitsOf v)

theorem xorMap_pow_bitsOf (n : ℕ) (v : BitVec w) : (xorMap f hf ^ n) (bitsOf v) = bitsOf (f^[n] v) := by
  rw [Module.End.pow_apply]
  exact (Function.Semiconj.iterate_right (f := bitsOf) (fun v => (xorMap_bitsOf hf v).symm) n v).symm

include hf hg in
/-- Two maps that respect XOR are equal where they agree on each single bit. -/
theorem eq_of_eq_on_twoPow (h : ∀ k : Fin w, f (BitVec.twoPow w k.val) = g (BitVec.twoPow w k.val)) : f = g := by
  have hunit (k : Fin w) : (Pi.single k 1 : Fin w → ZMod 2) = bitsOf (BitVec.twoPow w k.val) := by
    funext j
    rw [Pi.single_apply, bitsOf, BitVec.getLsbD_twoPow, decide_eq_true k.isLt, Bool.true_and, gf2OfBool_decide]
    simp only [Fin.ext_iff, eq_comm]
  have hmap : xorMap f hf = xorMap g hg :=
    LinearMap.pi_ext' fun k => LinearMap.ext_ring <| by
      simpa only [LinearMap.comp_apply, LinearMap.single_apply, hunit, xorMap_bitsOf] using congrArg bitsOf (h k)
  funext v
  rw [← ofBits_bitsOf (f v), ← ofBits_bitsOf (g v), ← xorMap_bitsOf hf, ← xorMap_bitsOf hg, hmap]

/-- Cayley–Hamilton: a functional that vanishes on the first `n` iterates of a linear map in dimension `n`
vanishes on every iterate. -/
theorem apply_pow_eq_zero {K V : Type*} [Field K] [AddCommGroup V] [Module K V] [FiniteDimensional K V]
    [Nontrivial V] (T : Module.End K V) (φ : V →ₗ[K] K) (x : V)
    (h : ∀ j < Module.finrank K V, φ ((T ^ j) x) = 0) (n : ℕ) : φ ((T ^ n) x) = 0 := by
  have hne : T.charpoly ≠ 1 := by
    intro h1
    have := T.charpoly_natDegree
    rw [h1, Polynomial.natDegree_one] at this
    exact Module.finrank_pos.ne this
  have hdeg := Polynomial.natDegree_modByMonic_lt (Polynomial.X ^ n) T.charpoly_monic hne
  rw [T.charpoly_natDegree] at hdeg
  rw [LinearMap.pow_eq_aeval_mod_charpoly, Polynomial.aeval_eq_sum_range' hdeg, LinearMap.sum_apply, map_sum]
  refine Finset.sum_eq_zero fun j hj => ?_
  rw [LinearMap.smul_apply, map_smul, h j (Finset.mem_range.1 hj), smul_zero]

include hf in
/-- Where bit 0 of the first `w` iterates is 0, bit 0 of every iterate is 0: the bits satisfy a linear
recurrence of order `w` (R185). -/
theorem iterate_bit_zero_eq_false (hw : 0 < w) {v : BitVec w} (h : ∀ j < w, (f^[j] v).getLsbD 0 = false) (n : ℕ) :
    (f^[n] v).getLsbD 0 = false := by
  have : Nonempty (Fin w) := ⟨⟨0, hw⟩⟩
  have hzero := apply_pow_eq_zero (xorMap f hf) (LinearMap.proj ⟨0, hw⟩) (bitsOf v) (fun j hj => ?_) n
  · rw [xorMap_pow_bitsOf] at hzero
    exact (bitsOf_eq_zero_iff _ _).1 hzero
  · rw [Module.finrank_fin_fun] at hj
    rw [xorMap_pow_bitsOf]
    exact (bitsOf_eq_zero_iff _ ⟨0, hw⟩).2 (h j hj)

end

/-! ## A draw is decided by 128 calls -/

theorem callOdd_eq_getLsbD (chain : LfsrChain) (v : Wide) (k : ℕ) :
    callOdd chain v k = (callsL chain k v).getLsbD 0 := by
  rw [callOdd, callOutput, BitVec.getLsbD_append, byteOf_getLsbD]
  rfl

/-- R185: 128 even calls are followed by even calls only. -/
theorem drawNeverEnds_of_128_even {chain : LfsrChain} {v : Wide}
    (h : ∀ j, 1 ≤ j → j ≤ 128 → callOdd chain v j = false) : drawNeverEnds chain v := by
  intro j hj
  obtain ⟨n, rfl⟩ : ∃ n, j = n + 1 := ⟨j - 1, by omega⟩
  have hcall (n : ℕ) : callOdd chain v (n + 1) = ((callL chain)^[n] (callL chain v)).getLsbD 0 := by
    rw [callOdd_eq_getLsbD, callsL_eq_iterate_callL, Function.iterate_succ_apply]
  rw [hcall]
  refine iterate_bit_zero_eq_false (callL_xor chain) (by norm_num) (fun i hi => ?_) n
  rw [← hcall]
  exact h _ (by omega) (by omega)

theorem not_drawNeverEnds_of_drawsTo {chain : LfsrChain} {v v' : Wide} {m : Byte} {k : ℕ}
    (h : drawsTo chain v m v' k) : ¬ drawNeverEnds chain v := by
  obtain ⟨hk, -, hodd, -⟩ := h
  exact fun hnever => Bool.noConfusion (hodd.symm.trans (hnever k hk))

theorem drawsTo_le {chain : LfsrChain} {v v' : Wide} {m : Byte} {k : ℕ} (h : drawsTo chain v m v' k) :
    k ≤ 128 := by
  by_contra hk
  obtain ⟨-, heven, -⟩ := id h
  exact not_drawNeverEnds_of_drawsTo h
    (drawNeverEnds_of_128_even fun j hj hj' => heven j hj (by omega))

/-- Everything the model's draw can do (R184, R186; log 6): find the mask that the unbounded draw finds, or
stop after 128 calls of a draw that never ends. -/
theorem draw_cases (chain : LfsrChain) (v : Wide) :
    (∃ m v' k, drawsTo chain v m v' k ∧ draw chain v = .drew m v' k) ∨
    (drawNeverEnds chain v ∧ draw chain v = .hang (callsL chain 128 v) 128) := by
  cases hdraw : draw chain v with
  | drew m v' n =>
    obtain ⟨k, -, hn, hto⟩ := drawLoop_drew hdraw
    rw [Nat.zero_add] at hn
    subst hn
    exact .inl ⟨m, v', n, hto, rfl⟩
  | hang v' n =>
    obtain ⟨rfl, rfl, heven⟩ := drawLoop_hang hdraw
    exact .inr ⟨drawNeverEnds_of_128_even heven, rfl⟩

theorem draw_eq_drew_iff {chain : LfsrChain} {v v' : Wide} {m : Byte} {k : ℕ} :
    draw chain v = .drew m v' k ↔ drawsTo chain v m v' k := by
  refine ⟨fun hdrew => ?_, fun h => draw_of_drawsTo h (drawsTo_le h)⟩
  obtain ⟨m', u, n, hto, hdraw⟩ | ⟨-, hdraw⟩ := draw_cases chain v
  · cases hdraw.symm.trans hdrew
    exact hto
  · cases hdraw.symm.trans hdrew

theorem draw_of_drawNeverEnds {chain : LfsrChain} {v : Wide} (h : drawNeverEnds chain v) :
    draw chain v = .hang (callsL chain 128 v) 128 := by
  obtain ⟨m, v', k, hto, -⟩ | ⟨-, hdraw⟩ := draw_cases chain v
  · exact absurd h (not_drawNeverEnds_of_drawsTo hto)
  · exact hdraw

theorem drawNeverEnds_of_draw_hang {chain : LfsrChain} {v v' : Wide} {k : ℕ} (h : draw chain v = .hang v' k) :
    drawNeverEnds chain v := by
  obtain ⟨m, u, n, -, hdraw⟩ | ⟨hnever, -⟩ := draw_cases chain v
  · cases hdraw.symm.trans h
  · exact hnever

/-- Settles O48: the test bits of the calls satisfy a linear recurrence of order 128 (R185). -/
theorem drawIsDecidedByOneHundredTwentyEightCalls : Obligations.DrawIsDecidedByOneHundredTwentyEightCalls :=
  fun _ _ => ⟨drawNeverEnds_of_128_even, fun _ _ _ => drawsTo_le, fun _ _ _ => draw_eq_drew_iff,
    fun ⟨_, _, h⟩ => drawNeverEnds_of_draw_hang h, fun h => ⟨_, _, draw_of_drawNeverEnds h⟩⟩

/-! ## FRONT_TO_BACK draws look at byte 0 alone -/

/-- One shift step as byte 0 sees it with FRONT_TO_BACK (R182), written with XOR alone. -/
def frontStep (b : Byte) : Byte := (b >>> 1) ^^^ ((b ^^^ (b >>> 1) ^^^ (b >>> 2) ^^^ (b >>> 7)) <<< 7)

theorem frontStep_eq_shiftIn : ∀ b : Byte, frontStep b = shiftIn (frontNewbit b) b := by decide

theorem byteOf_zero_shiftStep (v : Wide) : byteOf (shiftStep .frontToBack v) 0 = frontStep (byteOf v 0) := by
  rw [byteOf_shiftStep_frontToBack_zero, newbit_eq_frontNewbit, frontStep_eq_shiftIn]

/-- The output's low bit is a function of byte 0 (R185). -/
theorem callOdd_frontToBack (v : Wide) (k : ℕ) :
    callOdd .frontToBack v k = ((frontStep^[32])^[k] (byteOf v 0)).getLsbD 0 := by
  have hfront := Function.Semiconj.iterate_right (f := fun u => byteOf u 0) byteOf_zero_shiftStep (32 * k) v
  rw [← Function.iterate_mul, ← hfront, ← callsL_eq_iterate_shiftStep, callOdd_eq_getLsbD, byteOf_getLsbD]
  rfl

theorem frontStep_xor (a b : Byte) : frontStep (a ^^^ b) = frontStep a ^^^ frontStep b := by
  simp only [frontStep, BitVec.ushiftRight_xor_distrib, BitVec.shiftLeft_xor_distrib]
  ac_rfl

/-- The step of byte 0 has period 255 (R185). -/
theorem frontStep_period : frontStep^[255] = id := by
  refine eq_of_eq_on_twoPow (Function.Semiconj₂.iterate frontStep_xor 255) (fun _ _ => rfl) ?_
  decide +kernel

/-- A nonzero byte shifts a 1 into its bit 0 within eight steps. -/
theorem exists_frontStep_odd : ∀ b : Byte, b ≠ 0#8 → ∃ j < 8, (frontStep^[j + 1] b).getLsbD 0 = true := by
  decide

/-- Eight calls are 256 steps, and so one step. -/
theorem frontCall_iterate_eight : (frontStep^[32])^[8] = frontStep := by
  rw [← Function.iterate_mul, Function.iterate_succ, frontStep_period, Function.id_comp]

/-- Were the first eight calls even, every call would be, and among the calls is every step. -/
theorem exists_odd_frontCall {b : Byte} (hb : b ≠ 0#8) :
    ∃ k, 1 ≤ k ∧ k ≤ 8 ∧ ((frontStep^[32])^[k] b).getLsbD 0 = true := by
  by_contra hnone
  have heven (k : ℕ) (hk : 1 ≤ k) (hk' : k ≤ 8) : ((frontStep^[32])^[k] b).getLsbD 0 = false :=
    Bool.eq_false_iff.2 fun hodd => hnone ⟨k, hk, hk', hodd⟩
  obtain ⟨j, -, hodd⟩ := exists_frontStep_odd b hb
  have hstep : frontStep^[j + 1] b = (frontStep^[32])^[8 * j + 7] (frontStep^[32] b) := by
    rw [← Function.iterate_succ_apply, show (8 * j + 7).succ = 8 * (j + 1) from rfl, Function.iterate_mul _ 8,
      frontCall_iterate_eight]
  rw [hstep, iterate_bit_zero_eq_false (Function.Semiconj₂.iterate frontStep_xor 32) (by norm_num)
    fun i hi => heven (i + 1) (by omega) (by omega)] at hodd
  cases hodd

/-- A draw ends with the first odd call. -/
theorem exists_drawsTo_of_callOdd {chain : LfsrChain} {v : Wide} {k : ℕ} (hk : 1 ≤ k)
    (hodd : callOdd chain v k = true) : ∃ m v' n, drawsTo chain v m v' n ∧ n ≤ k := by
  have hex : ∃ n, 1 ≤ n ∧ callOdd chain v n = true := ⟨k, hk, hodd⟩
  obtain ⟨hpos, hfirst⟩ := Nat.find_spec hex
  exact ⟨_, _, Nat.find hex, ⟨hpos, fun j hj hlt => Bool.eq_false_iff.2 fun h => Nat.find_min hex hlt ⟨hj, h⟩,
    hfirst, rfl, rfl⟩, Nat.find_min' hex ⟨hk, hodd⟩⟩

theorem drawNeverEnds_of_frontByte_zero {v : Wide} (h : byteOf v 0 = 0#8) : drawNeverEnds .frontToBack v := by
  intro j _
  rw [callOdd_frontToBack, h, Function.iterate_fixed (Function.iterate_fixed (by decide) 32)]
  rfl

theorem drawNeverEnds_zero (chain : LfsrChain) : drawNeverEnds chain 0#128 := by
  intro j _
  have hfixed : shiftStep chain 0#128 = 0#128 := by cases chain <;> decide
  rw [callOdd_eq_getLsbD, callsL_eq_iterate_shiftStep, Function.iterate_fixed hfixed]
  rfl

/-- Settles O49: with FRONT_TO_BACK the calls follow the steps of byte 0, whose period is 255. -/
theorem frontToBackDrawsEndWithinEightCalls : Obligations.FrontToBackDrawsEndWithinEightCalls := by
  refine ⟨fun v hv => ?_, fun v hv => drawNeverEnds_of_frontByte_zero hv, drawNeverEnds_zero⟩
  obtain ⟨k, hk, hk', hodd⟩ := exists_odd_frontCall hv
  rw [← callOdd_frontToBack] at hodd
  obtain ⟨m, v', n, hto, hn⟩ := exists_drawsTo_of_callOdd hk hodd
  exact ⟨m, v', n, hto, hn.trans hk'⟩

end Sys2Proof.Machine

namespace Sys2Proof.Machine

/-! ## LSEED, LLOAD, LSTORE -/

theorem exec_lseed (s : State) : exec .lseed s = .next (complete (setL encoderSeed s)) := rfl

/-- Settles O43: L becomes the seed of R190, whose bytes are known. -/
theorem lseedLoadsTheEncoderSeed : Obligations.LseedLoadsTheEncoderSeed := fun s =>
  ⟨_, exec_lseed s, ⟨rfl, rfl⟩, byteOf_encoderSeed, rfl, ⟨rfl, rfl⟩, rfl, exec_next_sameControl (exec_lseed s)⟩

theorem exec_lload (src : WReg) (s : State) : exec (.lload src) s = .next (complete (setL s.w[src] s)) := rfl

/-- Settles O44: L becomes the source. -/
theorem lloadCopiesAWideRegister : Obligations.LloadCopiesAWideRegister := fun src s =>
  ⟨_, exec_lload src s, ⟨rfl, rfl⟩, fun _ _ => rfl, rfl, ⟨rfl, rfl⟩, rfl,
    exec_next_sameControl (exec_lload src s)⟩

theorem exec_lstore (d : WReg) (s : State) : exec (.lstore d) s = .next (complete (writeW d s.l s)) := rfl

/-- Settles O45: the destination becomes L. -/
theorem lstoreCopiesTheGenerator : Obligations.LstoreCopiesTheGenerator := by
  intro d s
  refine ⟨_, exec_lstore d s, ⟨rfl, rfl⟩, fun k _ => ?_, sameWBut_writeW d _ s, rfl, ⟨rfl, rfl⟩, rfl,
    exec_next_sameControl (exec_lstore d s)⟩
  rw [complete_w, getElem_w_writeW_same]

/-! ## LCALL -/

/-- CALLCNT counts modulo 2^32 (R46). -/
theorem count_toNat (count : Word) (n : Nat) :
    (count + BitVec.ofNat 32 n).toNat = (count.toNat + n) % 2 ^ 32 := by
  rw [BitVec.toNat_add, BitVec.toNat_ofNat, Nat.add_mod_mod]

/-- R183: the output as a number. -/
theorem callOutput_toNat (v : Wide) : (callOutput v).toNat = (byteOf v 0).toNat + 256 * (byteOf v 1).toNat := by
  rw [callOutput, BitVec.toNat_append, ← Nat.shiftLeft_add_eq_or_of_lt (byteOf v 0).isLt, Nat.shiftLeft_eq]
  omega

/-- What LCALL with count `n` makes of a state (R195). -/
def afterCalls (d : XReg) (n : Nat) (s : State) : State :=
  complete (writeX d ((callOutput (callsL s.params.chain n s.l)).setWidth 32)
    (advanceL (callsL s.params.chain n s.l) n s))

theorem exec_lcall (d : XReg) (n : BitVec 16) (s : State) :
    exec (.lcall d n) s = .next (afterCalls d n.toNat s) := rfl

/-- Settles O46: `n` calls are `32 n` steps, and the output is read from the last register. -/
theorem lcallMakesTheCountedCalls : Obligations.LcallMakesTheCountedCalls := by
  intro d n s _
  refine ⟨_, exec_lcall d n s, ⟨rfl, rfl⟩, ?_, count_toNat _ _, ?_, fun i hi => ?_, rfl, rfl,
    exec_next_sameControl (exec_lcall d n s)⟩
  · exact congrFun (callsL_eq_iterate_shiftStep s.params.chain n.toNat) s.l
  · rw [afterCalls, complete_x, getElem_x_writeX_same, BitVec.toNat_setWidth_of_le (by norm_num), callOutput_toNat]
    rfl
  · exact sameXBut_writeX d _ (advanceL _ _ s) i hi

/-- Calls made by two commands are those of one, which writes the last output alone (R196). -/
theorem afterCalls_afterCalls (d : XReg) (m n : Nat) (s : State) :
    afterCalls d n (afterCalls d m s) = afterCalls d (m + n) s := by
  simp [afterCalls, callsL_add, complete, writeX, advanceL, BitVec.ofNat_add, BitVec.add_assoc]

theorem execTimes_lcall_afterCalls (d : XReg) (n m : Nat) (s : State) :
    execTimes (.lcall d 1#16) n (afterCalls d m s) = .next (afterCalls d (m + n) s) := by
  induction n generalizing m with
  | zero => rfl
  | succ n ih =>
    rw [execTimes, exec_lcall, afterCalls_afterCalls]
    exact (ih (m + 1)).trans (by rw [Nat.add_assoc, Nat.add_comm 1 n])

/-- Settles O47: by induction on the count, from the first command on. -/
theorem lcallIsRepeatedSingleCalls : Obligations.LcallIsRepeatedSingleCalls := by
  intro d n s hn
  obtain ⟨k, hk⟩ : ∃ k, n.toNat = 1 + k := by
    have : n.toNat ≠ 0 := fun h => hn (BitVec.eq_of_toNat_eq h)
    exact ⟨n.toNat - 1, by omega⟩
  have hone := execTimes_lcall_afterCalls d k 1 s
  rw [exec_lcall, hk, ← hone, Nat.add_comm 1 k]
  rfl

/-! ## LDRAW -/

theorem mod_two_of_drawsTo {chain : LfsrChain} {v v' : Wide} {m : Byte} {k : Nat} (h : drawsTo chain v m v' k) :
    m.toNat % 2 = 1 := by
  obtain ⟨-, -, hodd, rfl, rfl⟩ := h
  have hbit : ((callOutput (callsL chain k v)).setWidth 8).getLsbD 0 = true := by
    rw [BitVec.getLsbD_setWidth]; exact hodd
  rw [toNat_mod_two, hbit]
  rfl

theorem exec_ldraw_of_drawsTo {d : XReg} {s : State} {m : Byte} {v' : Wide} {k : Nat}
    (h : drawsTo s.params.chain s.l m v' k) :
    exec (.ldraw d) s = .next (complete (writeX d (wordOfByte m) (advanceL v' k s))) := by
  obtain ⟨m', u, n, hdrew, hexec⟩ | ⟨u, n, hhang, -⟩ := execLdraw_cases d s
  · cases hdrew.symm.trans (draw_eq_drew_iff.2 h)
    exact hexec
  · cases hhang.symm.trans (draw_eq_drew_iff.2 h)

/-- Settles O50: the model's draw is the unbounded one, whose mask is odd. -/
theorem ldrawWritesAnOddMask : Obligations.LdrawWritesAnOddMask := by
  intro d s m v' k hdraw _
  have hexec := exec_ldraw_of_drawsTo (d := d) hdraw
  refine ⟨_, hexec, ⟨rfl, rfl⟩, ?_, mod_two_of_drawsTo hdraw, rfl, count_toNat _ _,
    fun i hi => ?_, rfl, rfl, exec_next_sameControl hexec⟩
  · rw [complete_x, getElem_x_writeX_same, wordOfByte_toNat]
  · exact sameXBut_writeX d _ (advanceL _ _ s) i hi

/-! ## Draws that never end -/

theorem drawNeverEnds_callsL {chain : LfsrChain} {v : Wide} (h : drawNeverEnds chain v) (k : Nat) :
    drawNeverEnds chain (callsL chain k v) := by
  intro j hj
  rw [← callOdd_add]
  exact h _ (by omega)

/-- A draw without an end leaves a register from which draws do not end either. -/
theorem exists_draw_hang {chain : LfsrChain} {v : Wide} (h : drawNeverEnds chain v) :
    ∃ v' n, draw chain v = .hang v' n ∧ drawNeverEnds chain v' :=
  ⟨_, _, draw_of_drawNeverEnds h, drawNeverEnds_callsL h 128⟩

/-- Whichever of a block's draws has no end, the next draw from the register it leaves has none (log 7). -/
theorem exists_drawMasks_hang {chain : LfsrChain} {v : Wide} (h : blockDrawsNeverEnd chain v) :
    ∃ v' n, drawMasks chain v = .hang v' n ∧ drawNeverEnds chain v' := by
  obtain hfirst | ⟨m, v1, k, hdrew, hsecond | ⟨m', v2, k', hdrew', hthird⟩⟩ := h
  · obtain ⟨v', n, hhang, hnever⟩ := exists_draw_hang hfirst
    exact ⟨v', n, by simp only [drawMasks, hhang], hnever⟩
  · obtain ⟨v', n, hhang, hnever⟩ := exists_draw_hang hsecond
    exact ⟨v', k + n, by simp only [drawMasks, draw_eq_drew_iff.2 hdrew, hhang], hnever⟩
  · obtain ⟨v', n, hhang, hnever⟩ := exists_draw_hang hthird
    exact ⟨v', k + k' + n, by
      simp only [drawMasks, draw_eq_drew_iff.2 hdrew, draw_eq_drew_iff.2 hdrew', hhang], hnever⟩

theorem exists_maskedTransform_hang (factor : Masks → Masks) (d k b : WReg) {s : State}
    (h : blockDrawsNeverEnd s.params.chain s.l) :
    ∃ v n, maskedTransform factor d k b s = .next (advanceL v n s) ∧ drawNeverEnds s.params.chain v := by
  obtain ⟨v, n, hhang, hnever⟩ := exists_drawMasks_hang h
  obtain ⟨m, u, calls, hdrew, -⟩ | ⟨u, calls, hhang', hexec⟩ := maskedTransform_cases factor d k b s
  · cases hdrew.symm.trans hhang
  · cases hhang'.symm.trans hhang
    exact ⟨v, n, hexec, hnever⟩

theorem exists_execLdraw_hang (d : XReg) {s : State} (h : drawNeverEnds s.params.chain s.l) :
    ∃ v n, execLdraw d s = .next (advanceL v n s) ∧ drawNeverEnds s.params.chain v := by
  obtain ⟨v, n, hhang, hnever⟩ := exists_draw_hang h
  obtain ⟨m, u, calls, hdrew, -⟩ | ⟨u, calls, hhang', hexec⟩ := execLdraw_cases d s
  · cases hdrew.symm.trans hhang
  · cases hhang'.symm.trans hhang
    exact ⟨v, n, hexec, hnever⟩

/-- R186: a command that never completes advances the generator alone, and does not complete from the
register it leaves. -/
theorem exec_of_neverCompletes {i : Instr} {s : State} (h : neverCompletes s.params.chain s.l i) :
    ∃ v n, exec i s = .next (advanceL v n s) ∧ neverCompletes s.params.chain v i := by
  cases i with
  | ldraw d => exact exists_execLdraw_hang d h
  | lock d k b =>
    obtain ⟨v, n, hexec, hnever⟩ := exists_maskedTransform_hang (fun m => m) d k b h
    exact ⟨v, n, hexec, .inl hnever⟩
  | unlock d k b =>
    obtain ⟨v, n, hexec, hnever⟩ := exists_maskedTransform_hang invMasks d k b h
    exact ⟨v, n, hexec, .inl hnever⟩
  | nop | sinv _ _ | det3 _ _ | adj3 _ _ | inv3 _ _ | mvm3 _ _ _ | gmm _ _ _ | gmv _ _ _ | ginv _ _
  | gisinv _ _ | lseed | lload _ | lstore _ | lcall _ _ => exact h.elim

/-- Settles O51: only L and CALLCNT advance. -/
theorem endlessDrawsLeaveTheCommandBusy : Obligations.EndlessDrawsLeaveTheCommandBusy := by
  intro i s h
  obtain ⟨v, n, hexec, -⟩ := exec_of_neverCompletes h
  exact ⟨_, hexec, rfl, rfl, ⟨rfl, rfl⟩, rfl, exec_next_sameControl hexec⟩

/-! ## A hung engine -/

/-- The engine's turn of a hung state advances the generator alone and leaves it hung. -/
theorem engineTurn_of_hung {s : State} (h : hung s) :
    ∃ v n, engineTurn s = .next (advanceL v n s) ∧ hung (advanceL v n s) := by
  obtain ⟨c, i, hpend, hdecode, hnever⟩ := h
  obtain ⟨v, n, hexec, hnever'⟩ := exec_of_neverCompletes hnever
  exact ⟨v, n, (engineTurn_runs s c i hpend hdecode).trans hexec, c, i, hpend, hdecode, hnever'⟩

/-- A state with the latch, the register and the parameters of a hung one is hung. -/
theorem hung.congr {s t : State} (h : hung s) (hpend : t.pend = s.pend) (hl : t.l = s.l)
    (hparams : t.params = s.params) : hung t := by
  obtain ⟨c, i, hc, hdecode, hnever⟩ := h
  exact ⟨c, i, hpend.trans hc, hdecode, by rwa [hl, hparams]⟩

theorem AccessPerformed.done_imp {a : Access} {off : BitVec 12} {s t : State} (h : AccessPerformed a off s t)
    (hdone : t.done = true) : s.done = true := by
  cases h with
  | softReset v | accepted c i => cases hdone
  | statusWrite v =>
    have hkept : v[1] = false ∧ s.done = true := by simpa [writeStatus_eq] using hdone
    exact hkept.2
  | read _ | readFree | setIe _ | wroteW _ _ | wroteX _ _ | wroteL _ => exact hdone

/-- No host access sets DONE (R41). -/
theorem windowAccess_done_imp {a : Access} {off : BitVec 12} {s : State}
    (hdone : (windowAccess a off s).done = true) : s.done = true := by
  obtain ⟨e, info, -, hrejected⟩ | ⟨-, hperformed⟩ := windowAccess_cases a off s
  · rw [hrejected] at hdone
    simpa using hdone
  · exact hperformed.done_imp hdone

/-- The host's turn, where it is no reset, leaves a hung engine hung (R78, R246). -/
theorem step_host_of_hung {s : State} {a : Access} {ts : List Turn} (h : hung s)
    (hturns : s.turns = .host a :: ts) (hin : inWindow s.params (.host a))
    (hreset : ¬ isResetTurn s.params (.host a)) :
    ∃ t, step s = .next t ∧ hung t ∧ t.pend = s.pend ∧ t.w = s.w ∧ t.x = s.x ∧ (t.done = true → s.done = true) := by
  have hpend : s.pend ≠ none := by
    obtain ⟨c, -, hc, -⟩ := h
    simp [hc]
  obtain ⟨t, hstep, hp, -, hw, hx, hl, -⟩ := accessesDoNotDisturbARunningCommand s a ts hpend hturns hin hreset
  refine ⟨t, hstep, h.congr hp hl (parametersNeverChange s t hstep), hp, hw, hx, fun hdone => ?_⟩
  obtain ⟨off, -, -, haccess⟩ := step_inWindow hturns hin
  obtain rfl := Host.Outcome.next.inj (haccess.symm.trans hstep)
  exact windowAccess_done_imp (s := setTurns ts s) hdone

/-- Settles O52: an engine turn advances the generator from one endless draw to the next, and an access
leaves the running command alone. -/
theorem onlyAResetEndsAHungCommand : Obligations.OnlyAResetEndsAHungCommand := by
  intro s h hok
  obtain ⟨hturns, hstep⟩ | ⟨ts, hturns, hstep⟩ | ⟨a, ts, hturns, -⟩ | ⟨ts, hturns, -⟩ := step_cases s
  · obtain ⟨v, n, hengine, hhung⟩ := engineTurn_of_hung h
    exact ⟨_, hstep.trans hengine, hhung, rfl, rfl, rfl, id, fun _ => ⟨rfl, rfl, rfl⟩⟩
  · obtain ⟨v, n, hengine, hhung⟩ := engineTurn_of_hung (s := setTurns ts s) h
    exact ⟨_, hstep.trans hengine, hhung, rfl, rfl, rfl, id, fun _ => ⟨rfl, rfl, rfl⟩⟩
  · obtain ⟨hin, hreset⟩ := hok _ ts hturns
    obtain ⟨t, hnext, hhung, hpend, hw, hx, hdone⟩ := step_host_of_hung h hturns hin hreset
    exact ⟨t, hnext, hhung, hpend, hw, hx, hdone, fun hnot => absurd hturns (hnot a ts)⟩
  · obtain ⟨-, hreset⟩ := hok _ ts hturns
    exact absurd trivial hreset

/-! ## LOCK and UNLOCK -/

/-- The three masks as a vector. -/
def maskVec (m : Masks) : V3 := ![m.m0, m.m1, m.m2]

theorem cast_mul_toNat (a b : Byte) : ((a * b).toNat : ZMod 256) = a.toNat * b.toNat := by
  rw [BitVec.toNat_mul, ← Nat.cast_mul]
  exact ZMod.natCast_mod _ 256

theorem modVec_maskBlock (m : Masks) (u : V3) : modVec (maskBlock m u) = modVec u * modVec (maskVec m) := by
  funext i
  fin_cases i <;> exact cast_mul_toNat _ _

theorem maskVec_mk (m : V3) : maskVec ⟨m 0, m 1, m 2⟩ = m := by
  funext i
  fin_cases i <;> rfl

theorem maskVec_invMasks (m : Masks) (i : Fin 3) : maskVec (invMasks m) i = inv256 (maskVec m i) := by
  fin_cases i <;> rfl

theorem maskedTransform_of_blockDrawsTo (factor : Masks → Masks) (d k b : WReg) {s : State} {m : V3} {v' : Wide}
    {calls : Nat} (h : blockDrawsTo s.params.chain s.l m v' calls) :
    maskedTransform factor d k b s = .next (complete (writeW d
      (wideOfV3 (matMulVecMod (m3Of s.w[k]) (maskBlock (factor ⟨m 0, m 1, m 2⟩) (v3Of s.w[b]))))
      (advanceL v' calls s))) := by
  obtain ⟨m', u, n, hdrew, hexec⟩ | ⟨u, n, hhang, -⟩ := maskedTransform_cases factor d k b s
  · cases hdrew.symm.trans (drawMasks_of_blockDrawsTo h)
    exact hexec
  · cases hhang.symm.trans (drawMasks_of_blockDrawsTo h)

/-- A masked transform whose draws end writes the key times the masked block (R211, R213). -/
theorem maskedTransform_writes (factor : Masks → Masks) (d k b : WReg) {s : State} {m : V3} {v' : Wide}
    {calls : Nat} (h : blockDrawsTo s.params.chain s.l m v' calls) :
    ∃ t, maskedTransform factor d k b s = .next t ∧ completed t ∧
      ringVecMod t.w[d] = (ringMatrixMod s.w[k]).mulVec
        (ringVecMod s.w[b] * modVec (maskVec (factor ⟨m 0, m 1, m 2⟩))) ∧
      zeroFrom 3 t.w[d] ∧ t.l = v' ∧ t.callcnt.toNat = (s.callcnt.toNat + calls) % 2 ^ 32 ∧
      sameWBut d s t ∧ t.x = s.x ∧ t.ni = s.ni := by
  refine ⟨_, maskedTransform_of_blockDrawsTo factor d k b h, ⟨rfl, rfl⟩, ?_, ?_, rfl, count_toNat _ _,
    fun i hi => ?_, rfl, rfl⟩
  · rw [complete_w, getElem_w_writeW_same, ← modVec_v3Of, v3Of_wideOfV3, modVec_matMulVecMod, modVec_maskBlock]
    rfl
  · rw [complete_w, getElem_w_writeW_same]
    exact zeroFrom_wideOfV3 _
  · exact sameWBut_writeW d _ (advanceL _ _ s) i hi

/-- Settles O53: the factors are the masks. -/
theorem lockWritesTheMaskedProduct : Obligations.LockWritesTheMaskedProduct := by
  intro d k b s m v' calls h
  obtain ⟨t, hexec, hcompleted, hw, hzero, hl, hcount, hframe, hx, hni⟩ :=
    maskedTransform_writes (fun m => m) d k b h
  rw [maskVec_mk] at hw
  exact ⟨t, hexec, hcompleted, hw, hzero, hl, hcount, hframe, hx, hni,
    exec_next_sameControl (i := .lock d k b) hexec⟩

theorem odd_of_blockDrawsTo {chain : LfsrChain} {v v' : Wide} {m : V3} {calls : Nat}
    (h : blockDrawsTo chain v m v' calls) (i : Fin 3) : (m i).toNat % 2 = 1 := by
  obtain ⟨v1, v2, k1, k2, k3, h0, h1, h2, -⟩ := h
  fin_cases i
  · exact mod_two_of_drawsTo h0
  · exact mod_two_of_drawsTo h1
  · exact mod_two_of_drawsTo h2

theorem inv256_mul_cast {a : Byte} (hodd : a.toNat % 2 = 1) :
    ((inv256 a).toNat : ZMod 256) * a.toNat = 1 := by
  obtain ⟨heven, -⟩ | ⟨-, -, hinv⟩ := inv256_cases a
  · omega
  · rw [mul_comm, ← Nat.cast_mul, ← ZMod.natCast_mod, hinv, Nat.cast_one]

/-- Settles O54: the factors are the inverses of the masks, which are odd. -/
theorem unlockWritesTheUnmaskedProduct : Obligations.UnlockWritesTheUnmaskedProduct := by
  intro d k b s m v' calls h
  obtain ⟨t, hexec, hcompleted, hw, hzero, hl, hcount, hframe, hx, hni⟩ :=
    maskedTransform_writes invMasks d k b h
  refine ⟨t, hexec, hcompleted, ⟨modVec (maskVec (invMasks ⟨m 0, m 1, m 2⟩)), fun i => ?_, hw⟩, hzero, hl, hcount,
    hframe, hx, hni, exec_next_sameControl (i := .unlock d k b) hexec⟩
  rw [modVec, maskVec_invMasks, maskVec_mk]
  exact inv256_mul_cast (odd_of_blockDrawsTo h i)

end Sys2Proof.Machine

namespace Sys2Proof.Machine

/-! ## UNLOCK after LOCK -/

/-- The element-wise product of R211 is the product with the diagonal matrix of the factors (R216). -/
theorem diagonal_mulVec_eq_mul {R : Type} [CommSemiring R] (u n : Fin 3 → R) :
    (Matrix.diagonal n).mulVec u = fun i => u i * n i :=
  funext fun i => (Matrix.mulVec_diagonal n u i).trans (mul_comm _ _)

theorem diagonal_mul_eq_one {R : Type} [CommSemiring R] {m n : Fin 3 → R} (h : ∀ i, n i * m i = 1) :
    Matrix.diagonal n * Matrix.diagonal m = 1 := by
  rw [Matrix.diagonal_mul_diagonal, funext h, Matrix.diagonal_one]

/-- R216 over Z/256: UNLOCK of LOCK from the same register multiplies the block by both keys, with the masks
before the first and their inverses before the second. -/
theorem unlock_lock_of_blockDrawsTo {s : State} {m : Fin 3 → Byte} {v' : Wide} {calls : Nat}
    (d k b e k' : WReg) (hd : d ≠ k') (h : blockDrawsTo s.params.chain s.l m v' calls) :
    ∃ t u, exec (.lock d k b) s = .next t ∧ exec (.unlock e k' d) { t with l := s.l } = .next u ∧
      ∃ n : Fin 3 → ZMod 256, (∀ i, n i * ((m i).toNat : ZMod 256) = 1) ∧
        ringVecMod u.w[e] = (ringMatrixMod s.w[k'] * Matrix.diagonal n * ringMatrixMod s.w[k] *
          Matrix.diagonal (fun i => ((m i).toNat : ZMod 256))).mulVec (ringVecMod s.w[b]) := by
  obtain ⟨t, hlock, -, ht, -, -, -, hframe, -, -, hparams, -⟩ := lockWritesTheMaskedProduct d k b s m v' calls h
  have h' : blockDrawsTo t.params.chain s.l m v' calls := by rwa [hparams]
  obtain ⟨u, hunlock, -, ⟨n, hinv, hu⟩, -⟩ :=
    unlockWritesTheUnmaskedProduct e k' d { t with l := s.l } m v' calls h'
  refine ⟨t, u, hlock, hunlock, n, hinv, ?_⟩
  rw [hu, hframe k' hd.symm, ht]
  simp only [← diagonal_mulVec_eq_mul, Matrix.mulVec_mulVec, Matrix.mul_assoc]

/-- Settles O56: with identity keys what is left is the product of the two diagonal matrices. -/
theorem unlockOfLockFormula : Obligations.UnlockOfLockFormula := by
  intro s d k b e k' m v' calls hd h
  obtain ⟨t, u, hlock, hunlock, n, hinv, hu⟩ := unlock_lock_of_blockDrawsTo d k b e k' hd h
  have hdiag := diagonal_mul_eq_one hinv
  refine ⟨t, u, hlock, hunlock, ⟨_, _, rfl, hdiag, hu⟩, fun hk hk' => modVec_injective ?_⟩
  rw [modVec_v3Of, modVec_v3Of, hu, hk, hk', Matrix.one_mul, Matrix.mul_one, hdiag, Matrix.one_mulVec]

/-! ## LOCK and UNLOCK in lock-step -/

/-- The draws see L and the chain alone, so two masked transforms from equal registers advance L and CALLCNT
alike and complete together, whatever their factors, keys and blocks (R217). -/
theorem maskedTransform_lockStep (f f' : Masks → Masks) (d k b d' k' b' : WReg) {s s' : State}
    (hchain : s'.params.chain = s.params.chain) (hl : s'.l = s.l) (hcount : s'.callcnt = s.callcnt)
    (hbusy : s'.busy = s.busy) :
    ∃ t t', maskedTransform f d k b s = .next t ∧ maskedTransform f' d' k' b' s' = .next t' ∧
      t'.l = t.l ∧ t'.callcnt = t.callcnt ∧ t'.busy = t.busy := by
  have hdraws : drawMasks s'.params.chain s'.l = drawMasks s.params.chain s.l := by rw [hchain, hl]
  obtain ⟨m, v, n, hdrew, hexec⟩ | ⟨v, n, hhang, hexec⟩ := maskedTransform_cases f d k b s
  · obtain ⟨m', u, n', hdrew', hexec'⟩ | ⟨u, n', hhang', -⟩ := maskedTransform_cases f' d' k' b' s'
    · cases hdrew'.symm.trans (hdraws.trans hdrew)
      exact ⟨_, _, hexec, hexec', rfl, by simp [hcount], rfl⟩
    · cases hhang'.symm.trans (hdraws.trans hdrew)
  · obtain ⟨m', u, n', hdrew', -⟩ | ⟨u, n', hhang', hexec'⟩ := maskedTransform_cases f' d' k' b' s'
    · cases hdrew'.symm.trans (hdraws.trans hhang)
    · cases hhang'.symm.trans (hdraws.trans hhang)
      exact ⟨_, _, hexec, hexec', rfl, by simp [hcount], hbusy⟩

/-- Settles O55: LOCK and UNLOCK differ in the factors alone, on which no draw depends. -/
theorem lockAndUnlockStayInLockStep : Obligations.LockAndUnlockStayInLockStep :=
  fun _ _ d k b d' k' b' hchain hl hcount hbusy hbusy' =>
    maskedTransform_lockStep (fun m => m) invMasks d k b d' k' b' hchain hl hcount (hbusy'.trans hbusy.symm)

/-! ## NOP -/

theorem exec_nop (s : State) : exec .nop s = .next (complete s) := rfl

/-- Settles O27: NOP is the completion alone. -/
theorem nopOnlyCompletes : Obligations.NopOnlyCompletes := fun s =>
  ⟨_, exec_nop s, ⟨rfl, rfl⟩, exec_next_sameControl (exec_nop s), ⟨rfl, rfl⟩, ⟨rfl, rfl⟩, rfl⟩

end Sys2Proof.Machine

namespace Sys2Proof.Machine

/-! ## Commands raise no error -/

/-- Settles O23: every command goes on, and its completion and its hang both leave the control fields. -/
theorem commandsRaiseNoError : Obligations.CommandsRaiseNoError := by
  intro i s
  obtain ⟨t, hexec⟩ := exec_goes_on i s
  exact ⟨t, hexec, exec_next_sameControl hexec⟩

/-! ## The interrupt line -/

theorem State.irq_eq_true_iff (s : State) :
    s.irq = true ↔ s.ie = true ∧ (s.done = true ∨ s.err = true) := by
  simp [State.irq]

theorem State.irq_eq_false_of_ie {s : State} (hie : s.ie = false) : s.irq = false := by
  simp [State.irq, hie]

theorem State.irq_eq_false_of_done_of_err {s : State} (hdone : s.done = false) (herr : s.err = false) :
    s.irq = false := by
  simp [State.irq, hdone, herr]

/-- A command that empties the latch has completed (R49): where it hangs, the latch keeps its word. -/
theorem exec_done_of_pend_none {i : Instr} {s t : State} (h : exec i s = .next t) (hbusy : s.pend ≠ none)
    (hidle : t.pend = none) : t.done = true := by
  obtain ⟨u, ⟨-, hpend, -⟩, he | he⟩ := exec_completesOrHangs i s
  · obtain rfl : complete u = t := Host.Outcome.next.inj (he.symm.trans h)
    exact complete_done u
  · obtain rfl : u = t := Host.Outcome.next.inj (he.symm.trans h)
    exact absurd (hpend.symm.trans hidle) hbusy

/-- An access that raises an error leaves ERR set and IE as it was (R242). -/
theorem step_err_of_raisedError {s t : State} {a : Access} {ts : List Turn} {off : Nat}
    (hturns : s.turns = .host a :: ts) (haddr : a.addr = s.params.base + off) (hoff : off < 4096)
    (hraised : (raisedError s.busy a.width a.kind off).isSome = true) (hstep : step s = .next t) :
    t.err = true ∧ t.ie = s.ie := by
  obtain ⟨⟨e, info⟩, hsome⟩ := Option.isSome_iff_exists.1 hraised
  obtain ⟨u, hu, hrejected, -⟩ := accessErrorsInPriorityOrder s a ts off hturns haddr hoff
  obtain rfl : u = t := Host.Outcome.next.inj (hu.symm.trans hstep)
  rw [hrejected e info hsome]
  exact ⟨rfl, rfl⟩

/-- Settles O20: IRQ follows from IE, DONE and ERR alone, and each event sets or clears DONE or ERR. -/
theorem interruptLineRisesAndFalls : Obligations.InterruptLineRisesAndFalls := by
  refine ⟨fun s hie => State.irq_eq_false_of_ie hie, fun s t i hexec hie hbusy hidle => ?completion,
    fun s t a ts off hturns haddr hoff hraised hie hstep => ?error,
    fun s t ts v hturns hclearDone hclearErr hstep => ?statusWrite,
    fun s t ts i hi hidle herr hturns hstep => ?accepted⟩
  case completion =>
    obtain ⟨-, hkept, -⟩ := exec_next_sameControl hexec
    exact t.irq_eq_true_iff.2 ⟨hkept.trans hie, .inl (exec_done_of_pend_none hexec hbusy hidle)⟩
  case error =>
    obtain ⟨herr, hkept⟩ := step_err_of_raisedError hturns haddr hoff hraised hstep
    exact t.irq_eq_true_iff.2 ⟨hkept.trans hie, .inr herr⟩
  case statusWrite =>
    have hwrite := statusWriteClearsDoneAndErr s ts v hturns
    obtain rfl := Host.Outcome.next.inj (hwrite.symm.trans hstep)
    exact State.irq_eq_false_of_done_of_err (if_pos hclearDone) (if_pos hclearErr)
  case accepted =>
    obtain rfl := Host.Outcome.next.inj ((step_writeCommand hi hidle hturns).symm.trans hstep)
    exact State.irq_eq_false_of_done_of_err rfl herr

end Sys2Proof.Machine
